-- ==== Sys2Proof/Word.lean ====
section
/-! DEFINITION. The word types of the part's ports: a byte, and the 32-bit numbers that wrap (the record
sequence and the tray number, R133 and R138). Byte-order helpers stand in Machine/Bytes.lean. -/

namespace Sys2Proof

/-- One byte of a request, a slot shadow or a record. -/
abbrev Byte := BitVec 8

/-- A 32-bit number that wraps. -/
abbrev Word32 := BitVec 32

end Sys2Proof
end

