-- ==== Sys2Proof/Syntax.lean ====
section
/-! DEFINITION. The commands of the part: one constructor of `Instr` for each row of spec/opcode_table.json, with
the operands of the row. A request is what R168 says a request carries; a setup record is its raw fields, in the widths
of section 10.4. -/

namespace Sys2Proof

/-- The two sides of a letter, and the two imaging heads. -/
inductive Side
  | face
  | back
  deriving DecidableEq, Repr

/-- The four lanes (section 10.2 codes 0 to 3). -/
inductive Lane
  | img
  | ctl
  | blk
  | rpt
  deriving DecidableEq, Repr

/-- The kind of a request (R168). -/
inductive ReqKind
  | read
  | write
  deriving DecidableEq, Repr

/-- The status of a response (R180). -/
inductive Status
  | ok
  | err
  deriving DecidableEq, Repr

/-- A U-port request (R168). `beats` is its length; `payload` holds, for a WRITE, the enable and the data of each of
its 8 × `beats` bytes in ascending address order, and is empty for a READ. -/
structure Request where
  kind     : ReqKind
  addr     : BitVec 32
  beats    : Nat
  source   : BitVec 4
  classTag : BitVec 3
  tag      : BitVec 8
  payload  : List (Bool × Byte)
  deriving DecidableEq, Repr

/-- The body of a MEMORY_MAP record (section 10.4). -/
structure MemoryMapRecord where
  faceBase   : BitVec 32
  faceCount  : BitVec 16
  backBase   : BitVec 32
  backCount  : BitVec 16
  dispatch   : BitVec 32
  print      : BitVec 32
  status     : BitVec 32
  exit       : BitVec 32
  live       : BitVec 32
  pieceBase  : BitVec 32
  pieceCount : BitVec 16
  trayBase   : BitVec 32
  trayCount  : BitVec 16
  deriving DecidableEq, Repr

/-- The body of a SOURCE_TABLE record (section 10.4). -/
structure SourceTableRecord where
  faceHead : BitVec 8
  backHead : BitVec 8
  gate     : BitVec 8
  printer  : BitVec 8
  hosts    : BitVec 16
  deriving DecidableEq, Repr

/-- The body of a LANE_MAP record: the lane bytes of class tags 1 to 7, in that order (section 10.4). -/
structure LaneMapRecord where
  lanes : Vector (BitVec 8) 7
  deriving DecidableEq, Repr

/-- Black level and gain of one channel as a CORRECTION record gives them (section 10.4). -/
structure ChannelRecord where
  black : BitVec 16
  gain  : BitVec 16
  deriving DecidableEq, Repr

/-- The body of a CORRECTION record (section 10.4). -/
structure CorrectionRecord where
  side : BitVec 8
  v    : ChannelRecord
  r    : ChannelRecord
  l    : ChannelRecord
  deriving DecidableEq, Repr

/-- One comparison as a CLASS_TEST record gives it (section 10.4). -/
structure ComparisonRecord where
  channel : BitVec 8
  mode    : BitVec 8
  lo      : BitVec 16
  hi      : BitVec 16
  deriving DecidableEq, Repr

/-- The body of a CLASS_TEST record (section 10.4). -/
structure ClassTestRecord where
  cls              : BitVec 8
  primary          : ComparisonRecord
  secondaryPresent : Bool
  secondary        : ComparisonRecord
  runFloor         : BitVec 8
  weight           : BitVec 8
  minLines         : BitVec 16
  minHits          : BitVec 16
  earlyHits        : BitVec 16
  deriving DecidableEq, Repr

/-- The body of a GEOMETRY record (section 10.4). -/
structure GeometryRecord where
  zw             : BitVec 16
  zh             : BitVec 16
  lineLimit      : BitVec 16
  lineFaultLimit : BitVec 8
  deriving DecidableEq, Repr

/-- The body of a DECISION record (section 10.4). -/
structure DecisionRecord where
  rankPh    : BitVec 8
  rankCol   : BitVec 8
  rankFl    : BitVec 8
  margin    : BitVec 8
  tolerance : BitVec 8
  xMin      : BitVec 16
  xMax      : BitVec 16
  yMin      : BitVec 16
  yMax      : BitVec 16
  deriving DecidableEq, Repr

/-- The body of a TRAY_SET record (section 10.4). -/
structure TraySetRecord where
  actions    : Vector (BitVec 8) 8
  stackers   : Vector (BitVec 8) 8
  diePh      : BitVec 8
  dieCol     : BitVec 8
  pieceLimit : BitVec 16
  ageLimit   : BitVec 8
  deriving DecidableEq, Repr

/-- The commands: one constructor for each row of spec/opcode_table.json, in the table's order. A row that a request
brings about has that request as its operand; a row that a captured record brings about has the record's body; a
lane message has its lane and count. LOPEN and LCLOSE carry the raw operand byte of the DIRECTIVE record. -/
inductive Instr
  | pinReset (straps : BitVec 16)
  | requestPresentation (r : Request)
  | requestArrival (r : Request)
  | heldRequestArrival
  | imageWrite (r : Request)
  | setupWrite (r : Request)
  | memoryMap (m : MemoryMapRecord)
  | sourceTable (m : SourceTableRecord)
  | laneMap (m : LaneMapRecord)
  | alarm (mask : BitVec 16)
  | correction (m : CorrectionRecord)
  | classTest (m : ClassTestRecord)
  | geometry (m : GeometryRecord)
  | decision (m : DecisionRecord)
  | traySet (m : TraySetRecord)
  | run
  | drain
  | stby
  | clrs
  | tclose
  | csusp
  | cres
  | crel
  | lopen (operand : BitVec 8)
  | lclose (operand : BitVec 8)
  | restart
  | drainEnd
  | dispatchRead (r : Request)
  | printRead (r : Request)
  | liveRead (r : Request)
  | exitWrite (r : Request)
  | printStatusWrite (r : Request)
  | grant (lane : Lane) (n : BitVec 6)
  | credit (lane : Lane) (k : BitVec 6)
  | drop (lane : Lane)
  | issue
  | response (source : BitVec 4) (tag : BitVec 8) (status : Status) (data : List Byte)
  | pendingClose
  | trayRecordJoining
  | close (lane : Lane)
  deriving DecidableEq, Repr

end Sys2Proof
end

