-- ==== Sys2Proof/Decode.lean ====
section
/-! DEFINITION. The part fetches no instructions, and no row of spec/opcode_table.json gives bits. What the spec does
encode in a word is the P-link message of section 10.9: `linkMessage` forms the messages the part sends, `decodeMessage`
reads the messages it takes (R189), and `decodeTableWord` reads a 16-bit word as a received message. -/

namespace Sys2Proof

/-- Section 10.2: the lane codes. -/
def Lane.code : Lane → Nat
  | .img => 0
  | .ctl => 1
  | .blk => 2
  | .rpt => 3

/-- Section 10.2: the lane a two-bit code names (every code names one). -/
def Lane.ofCode (c : Nat) : Lane :=
  if c % 4 = 0 then .img else if c % 4 = 1 then .ctl else if c % 4 = 2 then .blk else .rpt

/-- Section 10.9: the type codes of the P-link messages. -/
def messageOpen : Nat := 1
/-- Type code of CLOSE. -/
def messageClose : Nat := 2
/-- Type code of GRANT. -/
def messageGrant : Nat := 3
/-- Type code of CREDIT. -/
def messageCredit : Nat := 4
/-- Type code of DROP. -/
def messageDrop : Nat := 5

/-- Section 10.9: a P-link message: type in bits 2..0, lane in bits 4..3, count in bits 10..5, bits 15..11 zero. -/
def linkMessage (type : Nat) (lane : Lane) (count : BitVec 6) : BitVec 16 :=
  BitVec.ofNat 16 (type % 8 + 8 * lane.code + 32 * count.toNat)

/-- R189: the command a received message is. Types 0, 6 and 7, OPEN and CLOSE are none; bits 15..11 are ignored. -/
def decodeMessage (w : BitVec 16) : Option Instr :=
  let type := w.toNat % 8
  let lane := Lane.ofCode (w.toNat / 8)
  let count := BitVec.ofNat 6 (w.toNat / 32)
  if type = messageGrant then some (.grant lane count)
  else if type = messageCredit then some (.credit lane count)
  else if type = messageDrop then some (.drop lane)
  else none

/-- The command that a word spells. The table gives no row bits; the words the spec itself encodes are the 2-byte P-link
messages (R189), and a 16-bit word is read as one (log entry 3; DESIGN CHOICE). -/
def decodeTableWord (nbits w : Nat) : Option Instr :=
  if nbits = 16 then decodeMessage (BitVec.ofNat 16 w) else none

/-- Section 10.9: the word of a lane message command. A DROP's count is not read (R189); it is written as 0. -/
def encodeMessage : Instr → Option (BitVec 16)
  | .grant lane n => some (linkMessage messageGrant lane n)
  | .credit lane k => some (linkMessage messageCredit lane k)
  | .drop lane => some (linkMessage messageDrop lane 0)
  | _ => none

end Sys2Proof
end

