-- ==== Sys2Proof/Config.lean ====
section
/-! DEFINITION. What the spec leaves open: one free value. Nothing in Lean can evaluate it. -/

namespace Sys2Proof

/-- FREE VALUE (log entry 1; DESIGN CHOICE, safe). The address of an injected write that is issued while no memory
map is captured: R140 takes the ring bases and counts from the memory map and states no address without one.
The argument is `State.freeCount`, so each such write has an address of its own. -/
opaque Config.recordAddressWithoutMap : Nat → Word32

end Sys2Proof
end

