-- ==== Sys2Proof/Machine/Types.lean ====
section
/-! DEFINITION. The types of the part's state, block by block in the order of the block diagram, each as its chapter
gives it. Values the manual never treats as bits are inductive types or numbers; the flags, the alarm mask and the remark
set are bit vectors numbered as section 10.2 numbers them. -/

namespace Sys2Proof.Machine

/-! ## Containers for like things -/

/-- One value for each side. -/
structure PerSide (α : Type) where
  face : α
  back : α
  deriving DecidableEq, Repr

/-- The detector classes (R24). -/
inductive Cls
  | ph
  | col
  | fl
  deriving DecidableEq, Repr

/-- One value for each detector class. -/
structure PerClass (α : Type) where
  ph  : α
  col : α
  fl  : α
  deriving DecidableEq, Repr

/-- The two edges of a line (R27). -/
inductive Edge
  | top
  | bottom
  deriving DecidableEq, Repr

/-- The two ends of a piece. -/
inductive End
  | lead
  | trail
  deriving DecidableEq, Repr

/-- One value for each band (R27). -/
structure PerBand (α : Type) where
  top    : α
  bottom : α
  deriving DecidableEq, Repr

/-- One value for each lane. -/
structure PerLane (α : Type) where
  img : α
  ctl : α
  blk : α
  rpt : α
  deriving DecidableEq, Repr

/-- A corner number 0..7, as the corner table numbers them. -/
abbrev Corner := Fin 8

/-! ## Settings (chapters 1 to 3 and 7) -/

/-- The channels of a sample (R23). -/
inductive Channel
  | v
  | r
  | l
  deriving DecidableEq, Repr

/-- The comparison modes (R25). -/
inductive CompareMode
  | above
  | below
  | inside
  | outside
  deriving DecidableEq, Repr

/-- One comparison of a class test (R24). -/
structure Comparison where
  channel : Channel
  mode    : CompareMode
  lo      : Nat
  hi      : Nat
  deriving DecidableEq, Repr

/-- A class test (R24): m, L, M, w and E are `runFloor`, `minLines`, `minHits`, `weight` and `earlyHits`. -/
structure ClassTest where
  primary   : Comparison
  secondary : Option Comparison
  runFloor  : Nat
  minLines  : Nat
  minHits   : Nat
  weight    : Nat
  earlyHits : Nat
  deriving DecidableEq, Repr

/-- Black level and gain of one channel (R23). -/
structure ChannelCorrection where
  black : Nat
  gain  : Nat
  deriving DecidableEq, Repr

/-- The six correction values of one side (R153). -/
structure Correction where
  v : ChannelCorrection
  r : ChannelCorrection
  l : ChannelCorrection
  deriving DecidableEq, Repr

/-- The GEOMETRY settings (R155). -/
structure Geometry where
  zw             : Nat
  zh             : Nat
  lineLimit      : Nat
  lineFaultLimit : Nat
  deriving DecidableEq, Repr

/-- The DECISION settings (R47). -/
structure DecisionSettings where
  ranks     : PerClass Nat
  margin    : Nat
  xMin      : Nat
  xMax      : Nat
  yMin      : Nat
  yMax      : Nat
  tolerance : Nat
  deriving DecidableEq, Repr

/-- The settings of a generation (section 4.4). -/
structure Settings where
  correction : PerSide Correction
  tests      : PerClass ClassTest
  geometry   : Geometry
  decision   : DecisionSettings
  deriving DecidableEq, Repr

/-- A generation: an applied inspection set with its number 0..255 (R77). -/
structure Generation where
  number   : Nat
  settings : Settings
  deriving DecidableEq, Repr

/-- What the facing map may say of a corner (R48). -/
inductive Action
  | pass
  | rotate
  | flip
  | flipRotate
  | cull
  deriving DecidableEq, Repr

/-- The turn codes (R46). -/
inductive Turn
  | none
  | pass
  | rotate
  | flip
  | flipRotate
  deriving DecidableEq, Repr

/-- A tray set (R135): the stacker map is indexed by the code of the outcome kind. -/
structure TraySet where
  facing     : Vector Action 8
  stackers   : Vector Nat 8
  diePh      : Nat
  dieCol     : Nat
  pieceLimit : Nat
  ageLimit   : Nat
  deriving DecidableEq, Repr

/-! ## Zone engine (chapter 2) -/

/-- A zone record (R34). `done` is its state: false NOT_DONE, true DONE. -/
structure ZoneRecord where
  done    : Bool
  lines   : Nat
  hits    : Nat
  overs   : Nat
  xsum    : Nat
  ysum    : Nat
  esum    : Nat
  present : Bool
  score   : Nat
  xc      : Nat
  yc      : Nat
  e       : Nat
  deriving DecidableEq, Repr

/-- The tallies of one band and class (R30). -/
structure Tally where
  h    : Nat
  overs : Nat
  ysum : Nat
  deriving DecidableEq, Repr

/-- The six band and class tallies of a line (R30). -/
abbrev LineTallies := PerBand (PerClass Tally)

/-- One entry of a history ring (R36). -/
structure RingEntry where
  x       : Nat
  faulted : Bool
  extent  : Nat
  tallies : LineTallies
  deriving DecidableEq, Repr

/-- The states of a side's zone work (R28). -/
inductive ZoneState
  | idle
  | leading
  | body
  deriving DecidableEq, Repr

/-- The zone work of a side (section 2.3). `line` names the line the tally set belongs to, by piece and position; the
ring is kept oldest first. -/
structure ZoneWork where
  state   : ZoneState
  owner   : Option Nat
  line    : Option (Nat × Nat)
  tallies : LineTallies
  ring    : List RingEntry
  deriving DecidableEq, Repr

/-! ## Decision part and answers (chapters 3, 5 and 6) -/

/-- The kinds of decision (R46). -/
inductive DecisionKind
  | early
  | full
  | fault
  deriving DecidableEq, Repr

/-- The decision outcomes (R46). -/
inductive Outcome
  | stamp
  | meter
  | cullNone
  | cullAmbig
  | cullCorner
  | cullFault
  deriving DecidableEq, Repr

/-- The winner of a decision with its score, centroid and extent (R46). -/
structure Winner where
  corner : Corner
  cls    : Cls
  score  : Nat
  xc     : Nat
  yc     : Nat
  e      : Nat
  deriving DecidableEq, Repr

/-- A print plan (R46). -/
inductive Plan
  | print (die : Nat)
  | skipBand
  | skipNotStamp
  deriving DecidableEq, Repr

/-- The decision part of an entry (R46). `position` is the post-turn x', y'. -/
structure Decision where
  kind     : DecisionKind
  outcome  : Outcome
  turn     : Turn
  winner   : Option Winner
  position : Option (Nat × Nat)
  plan     : Option Plan
  deriving DecidableEq, Repr

/-- The outcome kinds of a dispatch answer (R99). -/
inductive OutcomeKind
  | stampOk
  | stampHeld
  | meter
  | cullNone
  | cullAmbig
  | cullCorner
  | cullLate
  | cullFault
  deriving DecidableEq, Repr

/-- A dispatch word as formed and stored (R103); `late` is also the LATE mark of the answer. -/
structure DispatchAnswer where
  piece   : Nat
  kind    : OutcomeKind
  turn    : Turn
  stacker : Nat
  early   : Bool
  clamped : Bool
  late    : Bool
  deriving DecidableEq, Repr

/-- The reasons of a SKIP print answer (R115). -/
inductive SkipReason
  | notDispatched
  | late
  | culled
  | notStamp
  | routedHeld
  | hold
  | suspend
  | band
  deriving DecidableEq, Repr

/-- What a print record says (R115). -/
inductive PrintAction
  | print (x y die : Nat)
  | skip (reason : SkipReason)
  deriving DecidableEq, Repr

/-- A print record as formed and stored (R115). -/
structure PrintAnswer where
  piece  : Nat
  action : PrintAction
  deriving DecidableEq, Repr

/-- The results of a print status word (section 6.5). -/
inductive PrintStatus
  | ok
  | misprint
  | headFault
  | inkOut
  deriving DecidableEq, Repr

/-! ## Track table (chapter 4) -/

/-- The states of a side record (section 1.6). -/
inductive SideState
  | notSeen
  | opened
  | closed
  | missing
  | truncated
  | overlong
  deriving DecidableEq, Repr

/-- A side record (section 1.6). -/
structure SideRecord where
  state     : SideState
  expected  : Nat
  n         : Nat
  faulted   : Nat
  maxExtent : Nat
  deriving DecidableEq, Repr

/-- The 17 remarks (R70), in the order section 10.2 numbers them. -/
inductive Remark
  | early
  | earlyConflict
  | clamped
  | misrouted
  | printUnconfirmed
  | misstack
  | jam
  | earlyExit
  | double
  | truncated
  | overlong
  | sideMissing
  | lineFaults
  | faultAfterDispatch
  | misprint
  | headFault
  | inkOut
  deriving DecidableEq, Repr

/-- The piece faults (R66). -/
inductive PieceFault
  | truncated
  | overlong
  | double
  | lineFaults
  | sideMissing
  deriving DecidableEq, Repr

/-- The eleven dispositions (R91), in the order section 10.2 numbers them. -/
inductive Disposition
  | facedPh
  | facedColour
  | facedUncancelled
  | meter
  | cullNone
  | cullAmbig
  | cullCorner
  | cullLate
  | cullFault
  | lost
  | aborted
  deriving DecidableEq, Repr

/-- A track table entry (R70). `running` is its inspection: true RUNNING, false FINISHED. `zones` holds, corner by
corner, the zone records of the three classes. -/
structure Entry where
  piece       : Nat
  generation  : Nat
  running     : Bool
  sides       : PerSide SideRecord
  zones       : Vector (PerClass ZoneRecord) 8
  decision    : Option Decision
  dispatch    : Option DispatchAnswer
  print       : Option PrintAnswer
  printStatus : Option PrintStatus
  stacker     : Option Nat
  age         : Nat
  remarks     : BitVec 17
  disposition : Option Disposition
  deriving DecidableEq, Repr

/-- The run modes (R80). -/
inductive Mode
  | standby
  | run
  | drain
  deriving DecidableEq, Repr

/-! ## Line parsers (chapter 1) -/

/-- The line in progress (R4): `samples` is S, `top` and `bottom` are t and u, `next` is k. -/
structure Line where
  piece      : Nat
  x          : Nat
  slot       : Nat
  samples    : Nat
  top        : Nat
  bottom     : Nat
  lead       : Bool
  trail      : Bool
  double     : Bool
  next       : Nat
  inspecting : Bool
  deriving DecidableEq, Repr

/-- The parser states (section 1.2); the line in progress is held in IN_LINE only (R4). -/
inductive Parser
  | waitHeader
  | inLine (line : Line)
  | skipping
  deriving DecidableEq, Repr

/-! ## Generations and tray sets in preparation -/

/-- The generations (R77): the newest, the held ones that are not the newest in the order of their application, and the
staged inspection set with its dirty mark (R157). -/
structure Generations where
  newest : Generation
  older  : List Generation
  staged : Settings
  dirty  : Bool
  deriving DecidableEq, Repr

/-- The tray set in force and the staged tray set with its dirty mark (R135). -/
structure TraySets where
  inForce : TraySet
  staged  : TraySet
  dirty   : Bool
  deriving DecidableEq, Repr

/-! ## Cancel control (chapter 6) -/

/-- Cancel control's state (R106). -/
structure Cancel where
  suspended : Bool
  held      : Bool
  misprints : Nat
  deriving DecidableEq, Repr

/-! ## Tally unit and report queue (chapter 7) -/

/-- Twelve counters or totals, indexed by the counter codes of section 10.2. -/
abbrev Counts := Vector Nat 12

/-- The two banks (R125). -/
inductive BankId
  | a
  | b
  deriving DecidableEq, Repr

/-- The reasons of a tray close (R130). -/
inductive CloseReason
  | tclose
  | limit
  | drain
  | abort
  deriving DecidableEq, Repr

/-- The pending-merged mark of a tray record (R144). -/
inductive SealMark
  | none
  | pending
  | merged
  deriving DecidableEq, Repr

/-- The seal data of a tray (R133). -/
structure SealData where
  trayNumber : Word32
  reason     : CloseReason
  mark       : SealMark
  recordSeq  : Word32
  deriving DecidableEq, Repr

/-- The bank that is not ACTIVE (R125). A FREE bank is zeroed, so it holds nothing. -/
inductive OtherBank
  | free
  | sealed (counts : Counts) (data : SealData)
  | writing (counts : Counts) (data : SealData)
  deriving DecidableEq, Repr

/-- The pending close (R134): its reason, and whether its mark is MERGED rather than PENDING. -/
structure Pending where
  reason : CloseReason
  merged : Bool
  deriving DecidableEq, Repr

/-- The tally unit (R125, R128, R129): which bank is ACTIVE, its counters, the other bank, and the rest. -/
structure TallyUnit where
  active     : BankId
  counts     : Counts
  other      : OtherBank
  totals     : Counts
  opened     : Nat
  trayNumber : Word32
  pending    : Option Pending
  deriving DecidableEq, Repr

/-- The contents of a piece record (R143). `dispatch` is the dispatched outcome kind, turn and stacker; `faceSide` and
`backSide` are the side records as they stood. -/
structure PieceRecord where
  seq         : Word32
  piece       : Nat
  trayNumber  : Word32
  generation  : Nat
  disposition : Disposition
  decision    : Option (DecisionKind × Outcome)
  dispatch    : Option (OutcomeKind × Turn × Nat)
  stacker     : Option Nat
  winner      : Option Winner
  overHits    : Nat
  position    : Option (Nat × Nat)
  print       : Option PrintAction
  printStatus : Option PrintStatus
  faceSide    : SideRecord
  backSide    : SideRecord
  remarks     : BitVec 17
  deriving DecidableEq, Repr

/-- The contents of a tray record (R144): the seal data and the twelve counters of its bank. -/
structure TrayRecord where
  data   : SealData
  counts : Counts
  deriving DecidableEq, Repr

/-- One record of the report queue (R137). -/
inductive Record
  | piece (p : PieceRecord)
  | tray (t : TrayRecord)
  deriving DecidableEq, Repr

/-- The state of a report queue entry (R137). An ISSUED entry keeps the tag of the injected write that carries it: that
is the link of R182, since no two injected writes of the issued list carry one tag. -/
inductive ReportState
  | waiting
  | issued (tag : Nat)
  deriving DecidableEq, Repr

/-- An entry of the report queue (R137). -/
structure ReportEntry where
  record : Record
  state  : ReportState
  deriving DecidableEq, Repr

/-- The report queue, oldest first, and the record sequence (R137, R138). -/
structure Report where
  queue : List ReportEntry
  seq   : Word32
  deriving DecidableEq, Repr

/-! ## Setup capture unit (chapter 8) -/

/-- An image ring as the memory map places it: base and slot count C (R160). -/
structure Ring where
  base  : Nat
  count : Nat
  deriving DecidableEq, Repr

/-- The captured memory map (R160). -/
structure MemoryMap where
  rings     : PerSide Ring
  dispatch  : Nat
  print     : Nat
  status    : Nat
  exit      : Nat
  live      : Nat
  pieceRing : Ring
  trayRing  : Ring
  deriving DecidableEq, Repr

/-- The captured source table (R161); bit i of `hosts` stands for source id i. -/
structure SourceTable where
  heads   : PerSide Nat
  gate    : Nat
  printer : Nat
  hosts   : BitVec 15
  deriving DecidableEq, Repr

/-- The lanes a U-port request can take (R169): RPT is never one. -/
inductive UpLane
  | img
  | ctl
  | blk
  deriving DecidableEq, Repr

/-- The 64-byte shadow of a setup slot (R149). -/
abbrev Shadow := Vector Byte 64

/-- The setup capture unit but for its status (R148, R149, R159, R152, R166). -/
structure SetupUnit where
  straps    : BitVec 16
  shadows   : Vector Shadow 16
  map       : Option MemoryMap
  sources   : Option SourceTable
  laneMap   : Vector UpLane 7
  alarmMask : BitVec 14
  deriving DecidableEq, Repr

/-- The 14 status flags (R165), in the order section 10.2 numbers them. -/
inductive Flag
  | setupRefused
  | setupForeign
  | onceRepeat
  | runRefused
  | lineFault
  | tableForced
  | pieceLost
  | lateDispatch
  | bandSkip
  | cancelHeld
  | recordDrop
  | reportFault
  | laneDrop
  | strayWrite
  deriving DecidableEq, Repr

/-- The setup refusal reasons (R151). -/
inductive RefusalReason
  | none
  | badKind
  | range
  | wrongMode
  | once
  | overlap
  deriving DecidableEq, Repr

/-- The RUN refusal reasons (R81). -/
inductive RunReason
  | none
  | noMap
  | noSources
  | laneNotUp
  deriving DecidableEq, Repr

/-- The status flags and the two refusal reasons (R165). -/
structure StatusUnit where
  flags       : BitVec 14
  setupReason : RefusalReason
  runReason   : RunReason
  deriving DecidableEq, Repr

/-! ## Path unit (chapter 9) -/

/-- The lane states (section 9.3). -/
inductive LaneState
  | down
  | opening
  | up
  | closing
  deriving DecidableEq, Repr

/-- One lane: its state, credit count and outstanding count (section 9.3). -/
structure LaneUnit where
  state       : LaneState
  credits     : Nat
  outstanding : Nat
  deriving DecidableEq, Repr

/-- A fill-in plan (R171): byte positions counted from the request's first byte, with the bytes that replace them. -/
abbrev FillPlan := List (Nat × Byte)

/-- A queued request with the fill-in plan that travels with it (R171). -/
structure Queued where
  request : Request
  plan    : FillPlan
  deriving DecidableEq, Repr

/-- Whether an issued request was forwarded or injected, and whether an injected write's link still stands (R182). -/
inductive Link
  | forwarded
  | injected (linked : Bool)
  deriving DecidableEq, Repr

/-- A request of the issued list (R179). -/
structure Issued where
  lane   : Lane
  source : BitVec 4
  tag    : BitVec 8
  kind   : ReqKind
  plan   : FillPlan
  link   : Link
  deriving DecidableEq, Repr

/-- What the part sends on the D-port: a request, or a P-link message (section 10.9). -/
inductive DownSend
  | request (r : Request)
  | message (w : BitVec 16)
  deriving DecidableEq, Repr

/-- What the part returns upstream (R180): read data, a write acknowledgement (no data), or an unmatched response as it
came. -/
structure UpReturn where
  source : BitVec 4
  tag    : BitVec 8
  status : Status
  data   : List Byte
  deriving DecidableEq, Repr

/-- The three queues of the lanes that take U-port requests, oldest first (section 9.2). -/
structure LaneQueues where
  img : List Queued
  ctl : List Queued
  blk : List Queued
  deriving DecidableEq, Repr

/-- The path unit (chapter 9). `held` holds the requests held at the U-port in the order they were presented, one at most
for each class tag; `behind` holds those the interconnect keeps behind a held request of their class (R170). `downLog` and
`upLog` hold what the two ports have sent since the last pin reset, oldest first (log entry 13, DESIGN CHOICE). -/
structure PathUnit where
  lanes   : PerLane LaneUnit
  queues  : LaneQueues
  held    : List Request
  behind  : List Request
  issued  : List Issued
  guard   : Nat
  downLog : List DownSend
  upLog   : List UpReturn
  deriving DecidableEq, Repr

end Sys2Proof.Machine
end

