-- ==== Sys2Proof/Machine/Bytes.lean ====
section
/-! DEFINITION. Byte order (R184): every multi-byte field is little-endian. Fields are read as unsigned numbers; words are
built from fields placed at their bit positions. -/

namespace Sys2Proof.Machine

/-- R184: the number in a list of bytes, the lowest-addressed byte least significant. -/
def numOfBytes : List Byte → Nat
  | [] => 0
  | b :: bs => b.toNat + 256 * numOfBytes bs

/-- R184: the `k` bytes of a number, least significant first. -/
def bytesOfNum : Nat → Nat → List Byte
  | 0, _ => []
  | k + 1, n => BitVec.ofNat 8 n :: bytesOfNum k (n / 256)

/-- Byte `i` of a list of bytes; 0 beyond its end. -/
def byteAt (bs : List Byte) (i : Nat) : Byte := bs.getD i 0

/-- The number in bytes `i` and `i + 1`. -/
def half (bs : List Byte) (i : Nat) : Nat := numOfBytes [byteAt bs i, byteAt bs (i + 1)]

/-- The number in bytes `i` to `i + 3`. -/
def word (bs : List Byte) (i : Nat) : Nat :=
  numOfBytes [byteAt bs i, byteAt bs (i + 1), byteAt bs (i + 2), byteAt bs (i + 3)]

/-- Bits `lo` to `lo + width - 1` of a number. -/
def bits (n lo width : Nat) : Nat := n / 2 ^ lo % 2 ^ width

/-- Bit `i` of a number. -/
def bitOf (n i : Nat) : Bool := decide (n / 2 ^ i % 2 = 1)

/-- A field of `width` bits placed with its least significant bit at bit `lo` of a word. -/
def field (lo width v : Nat) : Nat := v % 2 ^ width * 2 ^ lo

/-- A mark placed at bit `lo` of a word. -/
def mark (lo : Nat) (b : Bool) : Nat := if b then 2 ^ lo else 0

end Sys2Proof.Machine
end

