-- ==== Sys2Proof/Machine/Operands.lean ====
section
/-! DEFINITION. The operand forms: how a request lies against the windows (R168), the bytes it carries, the selectors of
the per-side, per-class, per-band and per-lane containers, and the shared codes of section 10.2. -/

namespace Sys2Proof.Machine

/-! ## Selectors -/

/-- The value of one side. -/
def PerSide.get {α : Type} (p : PerSide α) : Side → α
  | .face => p.face
  | .back => p.back

/-- One side's value replaced. -/
def PerSide.set {α : Type} (p : PerSide α) (sd : Side) (v : α) : PerSide α :=
  match sd with
  | .face => { p with face := v }
  | .back => { p with back := v }

/-- A function applied to both sides. -/
def PerSide.map {α β : Type} (f : α → β) (p : PerSide α) : PerSide β :=
  { face := f p.face, back := f p.back }

/-- The value of one class. -/
def PerClass.get {α : Type} (p : PerClass α) : Cls → α
  | .ph => p.ph
  | .col => p.col
  | .fl => p.fl

/-- One class's value replaced. -/
def PerClass.set {α : Type} (p : PerClass α) (k : Cls) (v : α) : PerClass α :=
  match k with
  | .ph => { p with ph := v }
  | .col => { p with col := v }
  | .fl => { p with fl := v }

/-- A function of the class applied to each class's value. -/
def PerClass.mapWith {α β : Type} (f : Cls → α → β) (p : PerClass α) : PerClass β :=
  { ph := f .ph p.ph, col := f .col p.col, fl := f .fl p.fl }

/-- The value of one band. -/
def PerBand.get {α : Type} (p : PerBand α) : Edge → α
  | .top => p.top
  | .bottom => p.bottom

/-- The value of one lane. -/
def PerLane.get {α : Type} (p : PerLane α) : Lane → α
  | .img => p.img
  | .ctl => p.ctl
  | .blk => p.blk
  | .rpt => p.rpt

/-- One lane's value replaced. -/
def PerLane.set {α : Type} (p : PerLane α) (l : Lane) (v : α) : PerLane α :=
  match l with
  | .img => { p with img := v }
  | .ctl => { p with ctl := v }
  | .blk => { p with blk := v }
  | .rpt => { p with rpt := v }

/-- The corner of a side, an end and an edge: FACE 0..3 and BACK 4..7, LEAD before TRAIL, TOP before BOTTOM. -/
def cornerOf : Side → End → Edge → Corner
  | .face, .lead, .top => 0
  | .face, .lead, .bottom => 1
  | .face, .trail, .top => 2
  | .face, .trail, .bottom => 3
  | .back, .lead, .top => 4
  | .back, .lead, .bottom => 5
  | .back, .trail, .top => 6
  | .back, .trail, .bottom => 7

/-- The side a corner lies on. -/
def sideOfCorner (c : Corner) : Side := if c.val < 4 then .face else .back

/-- The lane a U-port lane is. -/
def UpLane.toLane : UpLane → Lane
  | .img => .img
  | .ctl => .ctl
  | .blk => .blk

/-! ## Shared codes (section 10.2) -/

/-- Code of a class. -/
def Cls.code : Cls → Nat
  | .ph => 0
  | .col => 1
  | .fl => 2

/-- Code of a turn. -/
def Turn.code : Turn → Nat
  | .none => 0
  | .pass => 1
  | .rotate => 2
  | .flip => 3
  | .flipRotate => 4

/-- Code of an outcome kind, also its index in the stacker map (R99). -/
def OutcomeKind.code : OutcomeKind → Fin 8
  | .stampOk => 0
  | .stampHeld => 1
  | .meter => 2
  | .cullNone => 3
  | .cullAmbig => 4
  | .cullCorner => 5
  | .cullLate => 6
  | .cullFault => 7

/-- Code of a decision outcome. -/
def Outcome.code : Outcome → Nat
  | .stamp => 0
  | .meter => 1
  | .cullNone => 2
  | .cullAmbig => 3
  | .cullCorner => 4
  | .cullFault => 5

/-- Code of a decision kind (0 stands for an absent decision part). -/
def DecisionKind.code : DecisionKind → Nat
  | .early => 1
  | .full => 2
  | .fault => 3

/-- Code of a disposition, also its counter's index. -/
def Disposition.code : Disposition → Fin 12
  | .facedPh => 0
  | .facedColour => 1
  | .facedUncancelled => 2
  | .meter => 3
  | .cullNone => 4
  | .cullAmbig => 5
  | .cullCorner => 6
  | .cullLate => 7
  | .cullFault => 8
  | .lost => 9
  | .aborted => 10

/-- The index of the UNINSPECTED counter. -/
def uninspectedCode : Fin 12 := 11

/-- Code of a side state. -/
def SideState.code : SideState → Nat
  | .notSeen => 0
  | .opened => 1
  | .closed => 2
  | .missing => 3
  | .truncated => 4
  | .overlong => 5

/-- Code of a print action (0 stands for an absent print answer). -/
def PrintAction.code : PrintAction → Nat
  | .print _ _ _ => 1
  | .skip _ => 2

/-- Code of a skip reason (0 stands for none). -/
def SkipReason.code : SkipReason → Nat
  | .notDispatched => 1
  | .late => 2
  | .culled => 3
  | .notStamp => 4
  | .routedHeld => 5
  | .hold => 6
  | .suspend => 7
  | .band => 8

/-- Code of a print status (0 stands for absent). -/
def PrintStatus.code : PrintStatus → Nat
  | .ok => 1
  | .misprint => 2
  | .headFault => 3
  | .inkOut => 4

/-- The print status a result byte names, if it names one (R118). -/
def PrintStatus.ofCode (c : Nat) : Option PrintStatus :=
  if c = 1 then some .ok
  else if c = 2 then some .misprint
  else if c = 3 then some .headFault
  else if c = 4 then some .inkOut
  else none

/-- Code of a close reason. -/
def CloseReason.code : CloseReason → Nat
  | .tclose => 0
  | .limit => 1
  | .drain => 2
  | .abort => 3

/-- Code of a pending-merged mark (section 10.7). -/
def SealMark.code : SealMark → Nat
  | .none => 0
  | .pending => 1
  | .merged => 2

/-- Code of a mode (section 10.8). -/
def Mode.code : Mode → Nat
  | .standby => 0
  | .run => 1
  | .drain => 2

/-- Code of a setup refusal reason (section 10.8). -/
def RefusalReason.code : RefusalReason → Nat
  | .none => 0
  | .badKind => 1
  | .range => 2
  | .wrongMode => 3
  | .once => 4
  | .overlap => 5

/-- Code of a RUN refusal reason (section 10.8). -/
def RunReason.code : RunReason → Nat
  | .none => 0
  | .noMap => 1
  | .noSources => 2
  | .laneNotUp => 3

/-- Code of a lane state (section 10.8). -/
def LaneState.code : LaneState → Nat
  | .down => 0
  | .opening => 1
  | .up => 2
  | .closing => 3

/-! ## Requests against windows (R168) -/

/-- The address of a request's first byte. -/
def reqLo (r : Request) : Nat := r.addr.toNat

/-- The address after a request's last byte: a request covers 8 × length bytes. -/
def reqHi (r : Request) : Nat := r.addr.toNat + 8 * r.beats

/-- R168: the covered bytes lie in two 4 KiB pages. -/
def reqCrosses (r : Request) : Bool := decide (reqLo r / 4096 ≠ (reqHi r - 1) / 4096)

/-- R168: a request that crosses a 4 KiB boundary, or is presented with source id 15, lies outside every window. -/
def reqOutside (r : Request) : Bool := reqCrosses r || decide (r.source = 15)

/-- At least one covered byte lies in the `size` bytes from `base`. -/
def reqTouches (r : Request) (base size : Nat) : Bool :=
  decide (reqLo r < base + size) && decide (base < reqHi r)

/-- Every covered byte lies in the `size` bytes from `base`. -/
def reqInside (r : Request) (base size : Nat) : Bool :=
  decide (base ≤ reqLo r) && decide (reqHi r ≤ base + size)

/-- The slots of `size` bytes, `count` of them from `base`, that a request touches, ascending (R86, R93, R111, R148). -/
def slotsTouched (r : Request) (base size count : Nat) : List Nat :=
  (List.range count).filter fun j => reqTouches r (base + size * j) size

/-- The byte a WRITE enables at an address, if it does. -/
def writtenAt (r : Request) (a : Nat) : Option Byte :=
  if a < reqLo r then none
  else match r.payload[a - reqLo r]? with
    | some (true, b) => some b
    | _ => none

/-- The `n` bytes from an address, if the WRITE enables all of them. -/
def writtenBytes (r : Request) (a : Nat) : Nat → Option (List Byte)
  | 0 => some []
  | n + 1 =>
    match writtenAt r a, writtenBytes r (a + 1) n with
    | some b, some bs => some (b :: bs)
    | _, _ => none

/-- The plan bytes of a READ that lie in the `bytes` that stand from address `base`: each with its position counted from
the request's first byte (R94, R112, R145). -/
def planOf (r : Request) (base : Nat) (bytes : List Byte) : FillPlan :=
  (List.range bytes.length).filterMap fun o =>
    if reqLo r ≤ base + o ∧ base + o < reqHi r then some (base + o - reqLo r, byteAt bytes o) else none

/-- R181: a response's data with the plan's bytes in place of memory's. -/
def substitute (plan : FillPlan) (data : List Byte) : List Byte :=
  plan.foldl (fun d p => d.set p.1 p.2) data

end Sys2Proof.Machine
end

