-- ==== Sys2Proof/Machine/Defaults.lean ====
section
/-! DEFINITION. The values the spec states for pin reset and RESTART: the default settings (R24, R47, R79), the default
tray set (R135), and the empty values of each block. -/

namespace Sys2Proof.Machine

/-- R24: the default PH test: L ABOVE, hi 600. An ABOVE comparison does not read its lo (log entry 12, DESIGN CHOICE). -/
def ClassTest.defaultPh : ClassTest :=
  { primary := { channel := .l, mode := .above, lo := 0, hi := 600 }, secondary := none
    runFloor := 6, minLines := 12, minHits := 300, weight := 16, earlyHits := 0 }

/-- R24: the default COL test: R BELOW, lo 320. A BELOW comparison does not read its hi (log entry 12, DESIGN CHOICE). -/
def ClassTest.defaultCol : ClassTest :=
  { primary := { channel := .r, mode := .below, lo := 320, hi := 0 }, secondary := none
    runFloor := 8, minLines := 16, minHits := 500, weight := 12, earlyHits := 0 }

/-- R24: the default FL test: L INSIDE, lo 250, hi 600; R ABOVE, hi 500 (its lo: log entry 12, DESIGN CHOICE). -/
def ClassTest.defaultFl : ClassTest :=
  { primary := { channel := .l, mode := .inside, lo := 250, hi := 600 }
    secondary := some { channel := .r, mode := .above, lo := 0, hi := 500 }
    runFloor := 6, minLines := 12, minHits := 300, weight := 16, earlyHits := 0 }

/-- R23: black 0 and gain 256. -/
def ChannelCorrection.unity : ChannelCorrection := { black := 0, gain := 256 }

/-- R79: unity on every channel. -/
def Correction.unity : Correction :=
  { v := ChannelCorrection.unity, r := ChannelCorrection.unity, l := ChannelCorrection.unity }

/-- R79: the settings of generation 0. -/
def Settings.default : Settings :=
  { correction := { face := Correction.unity, back := Correction.unity }
    tests := { ph := ClassTest.defaultPh, col := ClassTest.defaultCol, fl := ClassTest.defaultFl }
    geometry := { zw := 96, zh := 80, lineLimit := 800, lineFaultLimit := 3 }
    decision :=
      { ranks := { ph := 1, col := 2, fl := 3 }, margin := 80
        xMin := 4, xMax := 160, yMin := 4, yMax := 160, tolerance := 8 } }

/-- R79: the generation state after pin reset and RESTART. -/
def Generations.reset : Generations :=
  { newest := { number := 0, settings := Settings.default }, older := []
    staged := Settings.default, dirty := false }

/-- R135: the default tray set. -/
def TraySet.default : TraySet :=
  { facing := #v[.pass, .cull, .cull, .rotate, .cull, .flip, .flipRotate, .cull]
    stackers := #v[0, 1, 2, 3, 4, 4, 5, 6]
    diePh := 0, dieCol := 1, pieceLimit := 0, ageLimit := 6 }

/-- R135: both tray sets at the defaults, the staged one clean. -/
def TraySets.reset : TraySets :=
  { inForce := TraySet.default, staged := TraySet.default, dirty := false }

/-- R34: a zone record at the entry's open. -/
def ZoneRecord.empty : ZoneRecord :=
  { done := false, lines := 0, hits := 0, overs := 0, xsum := 0, ysum := 0, esum := 0
    present := false, score := 0, xc := 0, yc := 0, e := 0 }

/-- R70: the 24 zone records at the entry's open. -/
def zonesEmpty : Vector (PerClass ZoneRecord) 8 :=
  Vector.replicate 8 { ph := ZoneRecord.empty, col := ZoneRecord.empty, fl := ZoneRecord.empty }

/-- R30: a zero tally. -/
def Tally.zero : Tally := { h := 0, overs := 0, ysum := 0 }

/-- R30: six zero tallies. -/
def LineTallies.zero : LineTallies :=
  { top := { ph := Tally.zero, col := Tally.zero, fl := Tally.zero }
    bottom := { ph := Tally.zero, col := Tally.zero, fl := Tally.zero } }

/-- R28: zone work that is IDLE, with no owner, zero tallies and an empty ring. -/
def ZoneWork.idle : ZoneWork :=
  { state := .idle, owner := none, line := none, tallies := LineTallies.zero, ring := [] }

/-- Section 1.6: a side record at the entry's open. -/
def SideRecord.notSeen : SideRecord :=
  { state := .notSeen, expected := 0, n := 0, faulted := 0, maxExtent := 0 }

/-- R70: an entry as its open creates it. -/
def Entry.fresh (piece generation : Nat) : Entry :=
  { piece := piece, generation := generation, running := true
    sides := { face := SideRecord.notSeen, back := SideRecord.notSeen }
    zones := zonesEmpty, decision := none, dispatch := none, print := none, printStatus := none
    stacker := none, age := 0, remarks := 0, disposition := none }

/-- R106: cancel control after pin reset and RESTART. -/
def Cancel.reset : Cancel := { suspended := false, held := false, misprints := 0 }

/-- R125: twelve zero counters. -/
def Counts.zero : Counts := Vector.replicate 12 0

/-- R125, R128, R129: the tally unit after pin reset and RESTART. -/
def TallyUnit.reset : TallyUnit :=
  { active := .a, counts := Counts.zero, other := .free, totals := Counts.zero, opened := 0
    trayNumber := 1, pending := none }

/-- R137, R138: the report queue after pin reset and RESTART. -/
def Report.reset : Report := { queue := [], seq := 0 }

/-- R165, R151, R81: flags clear, reasons none. -/
def StatusUnit.clear : StatusUnit := { flags := 0, setupReason := .none, runReason := .none }

/-- R167: the setup capture unit after pin reset with the straps at the given levels. -/
def SetupUnit.reset (straps : BitVec 16) : SetupUnit :=
  { straps := straps, shadows := Vector.replicate 16 (Vector.replicate 64 0), map := none, sources := none
    laneMap := Vector.replicate 7 .blk, alarmMask := 0 }

/-- R183: a lane after pin reset. -/
def LaneUnit.down : LaneUnit := { state := .down, credits := 0, outstanding := 0 }

/-- R183, R189: the path unit after pin reset, once it has sent OPEN for BLK (type 1, lane code 2, count 0). R183 does not
speak of the requests the interconnect keeps behind a held one: they are discarded with it (log entry 6, DESIGN CHOICE,
unsafe). The two logs start anew (log entry 13). -/
def PathUnit.reset : PathUnit :=
  { lanes :=
      { img := LaneUnit.down, ctl := LaneUnit.down
        blk := { state := .opening, credits := 0, outstanding := 0 }, rpt := LaneUnit.down }
    queues := { img := [], ctl := [], blk := [] }
    held := [], behind := [], issued := [], guard := 0
    downLog := [.message 17], upLog := [] }

end Sys2Proof.Machine
end

