-- ==== Sys2Proof/Machine/State.lean ====
section
/-! DEFINITION. The state of the part: every piece of state the spec names, block by block, with the queue of commands
that wait (the model's own) and the counter of the free value (the model's own). The ALARM line is a function of the flags
and the mask (R166), the live window one of the whole state (R146): neither has a field. -/

namespace Sys2Proof.Machine

/-- The state of the part. `pending` is the queue of waiting commands, first in, first out. -/
structure State where
  pending         : List Instr
  setup           : SetupUnit
  status          : StatusUnit
  gens            : Generations
  trays           : TraySets
  mode            : Mode
  entries         : List Entry
  lastUninspected : Option Nat
  parsers         : PerSide Parser
  zones           : PerSide ZoneWork
  cancel          : Cancel
  tally           : TallyUnit
  report          : Report
  path            : PathUnit
  freeCount       : Nat
  deriving DecidableEq, Repr

/-- The faults that stop the machine. The spec describes none: every event leaves the part in a state it names, so the
type has no constructor and no meaning can end in a fault (safe: nothing is stopped). -/
inductive Fault
  deriving DecidableEq, Repr

/-- The refusals. -/
inductive Refusal
  /-- Raised by an arm of `exec` that has no meaning yet (safe: nothing is claimed of it). No arm does. -/
  | notModelled (mnemonic : String)
  deriving DecidableEq, Repr

/-- The machine right after pin reset with the straps at the given levels (R167, R183, R71, R80, R3, R28). -/
def State.resetWith (straps : BitVec 16) : State :=
  { pending := []
    setup := SetupUnit.reset straps
    status := StatusUnit.clear
    gens := Generations.reset
    trays := TraySets.reset
    mode := .standby
    entries := []
    lastUninspected := none
    parsers := { face := .waitHeader, back := .waitHeader }
    zones := { face := ZoneWork.idle, back := ZoneWork.idle }
    cancel := Cancel.reset
    tally := TallyUnit.reset
    report := Report.reset
    path := PathUnit.reset
    freeCount := 0 }

/-- The machine right after pin reset. The levels of the straps are the board's: the model takes 0 (log entry 2; DESIGN
CHOICE, unsafe); the command PIN_RESET takes them as its operand. -/
def State.reset : State := State.resetWith 0

end Sys2Proof.Machine
end

