-- ==== Sys2Proof/Machine/Flags.lean ====
section
/-! DEFINITION. The status flags (R165), the ALARM line (R166), the refusals of the setup unit (R151), and the remark
set of an entry (R70). -/

namespace Sys2Proof.Machine

/-- Section 10.2: the number of a flag. -/
def Flag.index : Flag → Nat
  | .setupRefused => 0
  | .setupForeign => 1
  | .onceRepeat => 2
  | .runRefused => 3
  | .lineFault => 4
  | .tableForced => 5
  | .pieceLost => 6
  | .lateDispatch => 7
  | .bandSkip => 8
  | .cancelHeld => 9
  | .recordDrop => 10
  | .reportFault => 11
  | .laneDrop => 12
  | .strayWrite => 13

/-- The flag vector with one flag alone. -/
def Flag.bit (f : Flag) : BitVec 14 := BitVec.twoPow 14 f.index

/-- Whether a flag is set. -/
def State.flagSet (s : State) (f : Flag) : Bool := s.status.flags.getLsbD f.index

/-- R165: an event sets a flag; setting a set flag leaves it set. -/
def State.raise (f : Flag) (s : State) : State :=
  { s with status := { s.status with flags := s.status.flags ||| f.bit } }

/-- A flag raised when a condition holds. -/
def State.raiseIf (b : Bool) (f : Flag) (s : State) : State := if b then s.raise f else s

/-- R166: the ALARM output is high while at least one flag is set whose mask mark is set. -/
def State.alarmHigh (s : State) : Bool := decide (s.status.flags &&& s.setup.alarmMask ≠ 0)

/-- R151: a refused record sets SETUP_REFUSED and writes its reason; a refusal as a repeated once-only record also sets
ONCE_REPEAT. -/
def State.refuse (reason : RefusalReason) (s : State) : State :=
  let s := s.raise .setupRefused
  let s := s.raiseIf (decide (reason = .once)) .onceRepeat
  { s with status := { s.status with setupReason := reason } }

/-- Section 10.2: the number of a remark. -/
def Remark.index : Remark → Nat
  | .early => 0
  | .earlyConflict => 1
  | .clamped => 2
  | .misrouted => 3
  | .printUnconfirmed => 4
  | .misstack => 5
  | .jam => 6
  | .earlyExit => 7
  | .double => 8
  | .truncated => 9
  | .overlong => 10
  | .sideMissing => 11
  | .lineFaults => 12
  | .faultAfterDispatch => 13
  | .misprint => 14
  | .headFault => 15
  | .inkOut => 16

/-- Whether an entry's remark set holds a remark. -/
def Entry.hasRemark (e : Entry) (k : Remark) : Bool := e.remarks.getLsbD k.index

/-- R70: a remark added; one the set already holds leaves it as it was. -/
def Entry.addRemark (k : Remark) (e : Entry) : Entry :=
  { e with remarks := e.remarks ||| BitVec.twoPow 17 k.index }

/-- A remark added when a condition holds. -/
def Entry.addRemarkIf (b : Bool) (k : Remark) (e : Entry) : Entry := if b then e.addRemark k else e

end Sys2Proof.Machine
end

