-- ==== Sys2Proof/Machine/Ops.lean ====
section
/-! DEFINITION. The named operations on the shared state: the entries of the track table (R71), the generations (R75, R77,
R78), the end of an inspection (R21, R43, R72), the parsers and the zone work. -/

namespace Sys2Proof.Machine

/-! ## Entries -/

/-- The entry that holds a piece number, if one does (R71). -/
def State.entry? (s : State) (piece : Nat) : Option Entry := s.entries.find? fun e => e.piece == piece

/-- A change of the entry that holds a piece number. -/
def State.modifyEntry (piece : Nat) (f : Entry → Entry) (s : State) : State :=
  { s with entries := s.entries.map fun e => if e.piece = piece then f e else e }

/-- A change of one side record of an entry. -/
def Entry.modifySide (sd : Side) (f : SideRecord → SideRecord) (e : Entry) : Entry :=
  { e with sides := e.sides.set sd (f (e.sides.get sd)) }

/-- The parser of one side replaced. -/
def State.setParser (sd : Side) (p : Parser) (s : State) : State :=
  { s with parsers := s.parsers.set sd p }

/-- The zone work of one side replaced. -/
def State.setZone (sd : Side) (z : ZoneWork) (s : State) : State :=
  { s with zones := s.zones.set sd z }

/-! ## Saturating counters -/

/-- The top of a 32-bit counter (R126). -/
def counterMax : Nat := 4294967295

/-- R126: a counter at its top stays there. -/
def satInc (n : Nat) : Nat := if n < counterMax then n + 1 else n

/-- R17: the expected next index and the faulted lines of a side record saturate at 1024. -/
def satLine (n : Nat) : Nat := if n < 1024 then n + 1 else n

/-! ## Generations -/

/-- R77: a running entry refers to a generation. -/
def State.claims (s : State) (number : Nat) : Bool :=
  s.entries.any fun e => e.running && (e.generation == number)

/-- R146: the held generation numbers, the earlier applied first. -/
def State.heldNumbers (s : State) : List Nat :=
  ((s.gens.older ++ [s.gens.newest]).map Generation.number).filter fun n => s.claims n

/-- R45: the settings a generation number stands for. A held number is always found; the newest answers otherwise (log
entry 14, DESIGN CHOICE). -/
def State.settingsOf (s : State) (number : Nat) : Settings :=
  match (s.gens.newest :: s.gens.older).find? fun g => g.number == number with
  | some g => g.settings
  | none => s.gens.newest.settings

/-- R77: a released generation that is not the newest is discarded. -/
def State.releaseGenerations (s : State) : State :=
  { s with gens := { s.gens with older := s.gens.older.filter fun g => s.claims g.number } }

/-- R77: application copies the staged set as the new newest generation, numbered g + 1 modulo 256, and marks the staged
set clean. The old newest is kept while it is held. -/
def State.applyStaged (s : State) : State :=
  let s := { s with
    gens :=
      { newest := { number := (s.gens.newest.number + 1) % 256, settings := s.gens.staged }
        older := s.gens.older ++ [s.gens.newest]
        staged := s.gens.staged
        dirty := false } }
  s.releaseGenerations

/-- R78: a dirty staged set is applied. -/
def State.applyStagedIfDirty (s : State) : State := if s.gens.dirty then s.applyStaged else s

/-- R75: at an open, a dirty staged set is applied when fewer than two generations are held. -/
def State.generationAtOpen (s : State) : State :=
  if s.gens.dirty && decide (s.heldNumbers.length < 2) then s.applyStaged else s

/-! ## The end of an inspection -/

/-- R21: the inspecting mark of a line in progress of the piece is cleared. -/
def Parser.clearMark (piece : Nat) : Parser → Parser
  | .inLine ln => .inLine (if ln.piece = piece then { ln with inspecting := false } else ln)
  | p => p

/-- R43: a side's zone work that the piece owns is dropped. -/
def ZoneWork.dropFor (piece : Nat) (z : ZoneWork) : ZoneWork :=
  if z.owner = some piece then ZoneWork.idle else z

/-- R43: a NOT_DONE zone record is zeroed, a DONE one keeps its result. -/
def ZoneRecord.dropUndone (z : ZoneRecord) : ZoneRecord := if z.done then z else ZoneRecord.empty

/-- R43: an entry's NOT_DONE zone records are zeroed. -/
def Entry.dropUndone (e : Entry) : Entry :=
  { e with zones := e.zones.map (PerClass.mapWith fun _ z => z.dropUndone) }

/-- R43, R44: the piece's zone work is dropped on each side it owns. -/
def State.dropZoneWork (piece : Nat) (s : State) : State :=
  let s := { s with zones := s.zones.map (ZoneWork.dropFor piece) }
  s.modifyEntry piece Entry.dropUndone

/-- R72, R21: the entry becomes FINISHED, its claim is released, and its lines in progress lose their mark. -/
def State.finishInspection (piece : Nat) (s : State) : State :=
  let s := s.modifyEntry piece fun e => { e with running := false }
  let s := { s with parsers := s.parsers.map (Parser.clearMark piece) }
  s.releaseGenerations

/-! ## Modes -/

/-- R3, R28: both parsers in WAIT_HEADER and both sides' zone work IDLE. -/
def State.idleInspection (s : State) : State :=
  { s with
    parsers := { face := .waitHeader, back := .waitHeader }
    zones := { face := ZoneWork.idle, back := ZoneWork.idle } }

/-- R83 steps 2 and 3, R84 steps 3 and 4: the mode becomes STANDBY and a dirty staged set is applied. -/
def State.enterStandby (s : State) : State :=
  ({ s with mode := .standby } : State).idleInspection.applyStagedIfDirty

/-- R107: cancelling is effective while SUSPENDED and HELD are both clear. -/
def State.cancelEffective (s : State) : Bool := !s.cancel.suspended && !s.cancel.held

end Sys2Proof.Machine
end

