-- ==== Sys2Proof/Machine/Tally.lean ====
section
/-! DEFINITION. The tally unit and the report queue's formation side (chapter 7): counting, tray close, tray set
application, piece and tray records. Issue and response stand in Machine/Path.lean. -/

namespace Sys2Proof.Machine

/-! ## Counters -/

/-- R126, R128: one counter of the ACTIVE bank and its total are incremented, each saturating on its own. -/
def TallyUnit.count (k : Fin 12) (t : TallyUnit) : TallyUnit :=
  { t with counts := t.counts.set k (satInc t.counts[k]), totals := t.totals.set k (satInc t.totals[k]) }

/-- A category counted. -/
def State.count (k : Fin 12) (s : State) : State := { s with tally := s.tally.count k }

/-- R129: the opened counter. -/
def State.countOpened (s : State) : State :=
  { s with tally := { s.tally with opened := satInc s.tally.opened } }

/-- Pieces in tray: the sum of the eleven disposition counters. -/
def piecesInTray (c : Counts) : Nat := (c.toList.take 11).sum

/-- R125: the bank that is not the given one. -/
def BankId.flip : BankId → BankId
  | .a => .b
  | .b => .a

/-! ## Report queue -/

/-- R137: the queue holds at most 8 entries. -/
def reportCapacity : Nat := 8

/-- The queue holds a tray record. -/
def Report.hasTray (r : Report) : Bool :=
  r.queue.any fun e => match e.record with
    | .tray _ => true
    | .piece _ => false

/-- A record joins the queue at its young end, WAITING. -/
def Report.join (rec' : Record) (r : Report) : Report :=
  { r with queue := r.queue ++ [{ record := rec', state := .waiting }] }

/-- R139: the tray record of a SEALED bank joins the queue, unless it is there already or the queue is full. -/
def State.joinTrayRecord (s : State) : State :=
  match s.tally.other with
  | .sealed counts data =>
    if s.report.queue.length < reportCapacity ∧ s.report.hasTray = false then
      { s with report := s.report.join (.tray { data := data, counts := counts }) }
    else s
  | _ => s

/-! ## Tray close -/

/-- R135: a dirty staged tray set is copied into force and marked clean. -/
def State.applyTraySetIfDirty (s : State) : State :=
  if s.trays.dirty then
    { s with trays := { s.trays with inForce := s.trays.staged, dirty := false } }
  else s

/-- R133: an executed close: seal, swap, next tray number, tray set, tray record. -/
def State.executeClose (reason : CloseReason) (sealMark : SealMark) (s : State) : State :=
  let data : SealData :=
    { trayNumber := s.tally.trayNumber, reason := reason, mark := sealMark, recordSeq := s.report.seq }
  let s := { s with
    tally := { s.tally with
      active := s.tally.active.flip
      counts := Counts.zero
      other := .sealed s.tally.counts data
      trayNumber := s.tally.trayNumber + 1 } }
  s.applyTraySetIfDirty.joinTrayRecord

/-- R130: a close request executes at once, becomes the pending close, or merges into it. -/
def State.requestClose (reason : CloseReason) (s : State) : State :=
  match s.tally.other with
  | .free => s.executeClose reason .none
  | _ =>
    match s.tally.pending with
    | none => { s with tally := { s.tally with pending := some { reason := reason, merged := false } } }
    | some p => { s with tally := { s.tally with pending := some { p with merged := true } } }

/-- R134: the mark a pending close gives its tray record. -/
def Pending.sealMark (p : Pending) : SealMark := if p.merged then .merged else .pending

/-- R134: a pending close executes once the other bank is FREE, and is then absent. -/
def State.settlePending (s : State) : State :=
  match s.tally.other, s.tally.pending with
  | .free, some p =>
    ({ s with tally := { s.tally with pending := none } } : State).executeClose p.reason p.sealMark
  | _, _ => s

/-- R132: the limit check after a retirement. -/
def State.limitCheck (s : State) : State :=
  if s.trays.inForce.pieceLimit ≠ 0 ∧ s.trays.inForce.pieceLimit ≤ piecesInTray s.tally.counts then
    s.requestClose .limit
  else s

/-! ## Piece records -/

/-- R143: the over-hits of the winner, 0 when it is absent. -/
def Entry.winnerOver (e : Entry) (w : Option Winner) : Nat :=
  match w with
  | some w => (e.zones[w.corner].get w.cls).overs
  | none => 0

/-- R143: a piece record from the entry and the tally and report state at its formation. -/
def Entry.record (e : Entry) (disposition : Disposition) (seq trayNumber : Word32) : PieceRecord :=
  { seq := seq
    piece := e.piece
    trayNumber := trayNumber
    generation := e.generation
    disposition := disposition
    decision := e.decision.map fun d => (d.kind, d.outcome)
    dispatch := e.dispatch.map fun a => (a.kind, a.turn, a.stacker)
    stacker := e.stacker
    winner := e.decision.bind Decision.winner
    overHits := e.winnerOver (e.decision.bind Decision.winner)
    position := e.decision.bind Decision.position
    print := e.print.map PrintAnswer.action
    printStatus := e.printStatus
    faceSide := e.sides.face
    backSide := e.sides.back
    remarks := e.remarks }

/-- R138: a piece record takes the next sequence number and joins the queue, or is dropped with RECORD_DROP. -/
def State.formPieceRecord (e : Entry) (disposition : Disposition) (s : State) : State :=
  let p := e.record disposition s.report.seq s.tally.trayNumber
  if s.report.queue.length < reportCapacity then
    { s with report := { queue := s.report.queue ++ [{ record := .piece p, state := .waiting }]
                         seq := s.report.seq + 1 } }
  else
    ({ s with report := { s.report with seq := s.report.seq + 1 } } : State).raise .recordDrop

end Sys2Proof.Machine
end

