-- ==== Sys2Proof/Machine/Formats.lean ====
section
/-! DEFINITION. The layouts the part supplies or writes (chapter 10): dispatch word, print record, piece record, tray record
and live window. Bits marked zero are 0, and the fields of an absent part are 0 with its presence mark clear (R184). -/

namespace Sys2Proof.Machine

/-- Section 10.5: the dispatch word, 8 bytes. -/
def DispatchAnswer.bytes (a : DispatchAnswer) : List Byte :=
  bytesOfNum 2 a.piece ++ bytesOfNum 1 a.kind.code.val ++ bytesOfNum 1 a.turn.code ++
    bytesOfNum 1 (field 0 4 a.stacker) ++ bytesOfNum 1 (mark 0 a.early + mark 1 a.clamped + mark 2 a.late) ++
    bytesOfNum 2 0

/-- Code of the reason of a print action; 0 for a PRINT (R187). -/
def PrintAction.reasonCode : PrintAction → Nat
  | .print _ _ _ => 0
  | .skip reason => reason.code

/-- Section 10.5, R187: the print record, 16 bytes. -/
def PrintAnswer.bytes (a : PrintAnswer) : List Byte :=
  let pos := match a.action with
    | .print x y die => (x, y, die)
    | .skip _ => (0, 0, 0)
  bytesOfNum 2 a.piece ++ bytesOfNum 1 a.action.code ++ bytesOfNum 1 a.action.reasonCode ++
    bytesOfNum 2 pos.1 ++ bytesOfNum 2 pos.2.1 ++ bytesOfNum 1 pos.2.2 ++ bytesOfNum 7 0

/-- Section 10.6 words 6 and 7: a side record; faulted lines above 255 are written as 255. -/
def SideRecord.word (r : SideRecord) : Nat :=
  field 0 3 r.state.code + field 3 11 r.n + field 14 8 (min r.faulted 255) + field 22 9 r.maxExtent

/-- Section 10.6 word 2. -/
def PieceRecord.word2 (p : PieceRecord) : Nat :=
  field 0 4 p.disposition.code.val +
  (match p.decision with
    | some (k, o) => field 4 2 k.code + field 6 3 o.code
    | none => 0) +
  (match p.dispatch with
    | some (k, t, st) => mark 9 true + field 10 3 k.code.val + field 13 3 t.code + field 16 4 st
    | none => 0) +
  (match p.stacker with
    | some st => mark 20 true + field 21 4 st
    | none => 0) +
  (match p.winner with
    | some w => mark 25 true + field 26 3 w.corner.val + field 29 2 w.cls.code
    | none => 0) +
  mark 31 p.position.isSome

/-- Section 10.6 word 3. -/
def PieceRecord.word3 (p : PieceRecord) : Nat :=
  match p.winner with
  | some w => field 0 16 w.score + field 16 16 p.overHits
  | none => 0

/-- Section 10.6 word 4. -/
def PieceRecord.word4 (p : PieceRecord) : Nat :=
  (match p.winner with
    | some w => field 0 10 w.xc + field 10 9 w.yc
    | none => 0) +
  (match p.position with
    | some q => field 19 10 q.1
    | none => 0) +
  (match p.printStatus with
    | some st => field 29 3 st.code
    | none => 0)

/-- Section 10.6 word 5. -/
def PieceRecord.word5 (p : PieceRecord) : Nat :=
  (match p.position with
    | some q => field 0 9 q.2
    | none => 0) +
  (match p.print with
    | some a => field 9 2 a.code + field 11 4 a.reasonCode
    | none => 0) +
  field 15 17 p.remarks.toNat

/-- Section 10.6, R188: the piece record, 32 bytes. -/
def PieceRecord.bytes (p : PieceRecord) : List Byte :=
  bytesOfNum 4 p.seq.toNat ++
  bytesOfNum 4 (field 0 16 p.piece + field 16 8 p.trayNumber.toNat + field 24 8 p.generation) ++
  bytesOfNum 4 p.word2 ++ bytesOfNum 4 p.word3 ++ bytesOfNum 4 p.word4 ++ bytesOfNum 4 p.word5 ++
  bytesOfNum 4 p.faceSide.word ++ bytesOfNum 4 p.backSide.word

/-- R144: the saturation mark: set when any of the 12 counters stands at its top. -/
def countsSaturated (c : Counts) : Bool := c.toList.any fun n => decide (n = counterMax)

/-- The four bytes of each counter, in code order. -/
def countsBytes (c : Counts) : List Byte := c.toList.flatMap (bytesOfNum 4)

/-- Section 10.7, R144: the tray record, 128 bytes. -/
def TrayRecord.bytes (t : TrayRecord) : List Byte :=
  bytesOfNum 4 t.data.trayNumber.toNat ++ bytesOfNum 1 t.data.reason.code ++ bytesOfNum 1 t.data.mark.code ++
    bytesOfNum 1 (mark 0 (countsSaturated t.counts)) ++ bytesOfNum 1 0 ++
    bytesOfNum 4 t.data.recordSeq.toNat ++ bytesOfNum 4 (min (piecesInTray t.counts) counterMax) ++
    countsBytes t.counts ++ bytesOfNum 64 0

/-- Section 10.8: the code of the other bank's state. -/
def OtherBank.code : OtherBank → Nat
  | .free => 0
  | .sealed _ _ => 2
  | .writing _ _ => 3

/-- Section 10.8 byte 11. -/
def TallyUnit.byte11 (t : TallyUnit) : Nat :=
  (match t.active with
    | .a => field 0 2 1 + field 2 2 t.other.code
    | .b => field 0 2 t.other.code + field 2 2 1) +
  (match t.pending with
    | some p => mark 4 true + field 5 2 p.reason.code + mark 7 p.merged
    | none => 0)

/-- Section 10.8: a lane's two bytes. -/
def LaneUnit.bytes (l : LaneUnit) : List Byte := bytesOfNum 1 l.state.code ++ bytesOfNum 1 l.credits

/-- Section 10.8, R145, R146: the live window's 256 bytes. -/
def State.liveBytes (s : State) : List Byte :=
  let held := s.heldNumbers
  bytesOfNum 1 s.mode.code ++ bytesOfNum 1 s.entries.length ++ bytesOfNum 1 s.status.setupReason.code ++
    bytesOfNum 1 s.status.runReason.code ++ bytesOfNum 2 s.status.flags.toNat ++
    bytesOfNum 1 (field 0 2 held.length + mark 2 s.gens.dirty + mark 3 s.trays.dirty) ++
    bytesOfNum 1 s.gens.newest.number ++ bytesOfNum 1 (held.getD 0 0) ++ bytesOfNum 1 (held.getD 1 0) ++
    bytesOfNum 1 (mark 0 s.cancel.suspended + mark 1 s.cancel.held + field 2 2 s.cancel.misprints) ++
    bytesOfNum 1 s.tally.byte11 ++ bytesOfNum 4 s.tally.trayNumber.toNat ++
    s.path.lanes.img.bytes ++ s.path.lanes.ctl.bytes ++ s.path.lanes.blk.bytes ++ s.path.lanes.rpt.bytes ++
    bytesOfNum 4 s.tally.opened ++ bytesOfNum 4 s.report.seq.toNat ++
    countsBytes s.tally.counts ++ countsBytes s.tally.totals ++ bytesOfNum 128 0

end Sys2Proof.Machine
end

