-- ==== Sys2Proof/Machine/FillIn.lean ====
section
/-! DEFINITION. The fill-in unit (chapters 5 and 6, R145): dispatch, print and live reads. A part of a read gives the new
state and the bytes the fill-in plan takes from it. -/

namespace Sys2Proof.Machine

/-- R95, R113: the oldest entry whose piece number modulo 64 is the slot's. -/
def State.slotEntry (s : State) (j : Nat) : Option Entry := s.entries.find? fun e => decide (e.piece % 64 = j)

/-! ## Dispatch -/

/-- R99: the outcome kind of a decided answer. -/
def Outcome.kind (effective : Bool) : Outcome → OutcomeKind
  | .stamp => if effective then .stampOk else .stampHeld
  | .meter => .meter
  | .cullNone => .cullNone
  | .cullAmbig => .cullAmbig
  | .cullCorner => .cullCorner
  | .cullFault => .cullFault

/-- R98: the answer formed from a decision part. -/
def Entry.decidedAnswer (e : Entry) (d : Decision) (effective : Bool) (ts : TraySet) : DispatchAnswer :=
  let kind := d.outcome.kind effective
  { piece := e.piece
    kind := kind
    turn := d.turn
    stacker := ts.stackers[kind.code]
    early := decide (d.kind = .early)
    clamped := decide (d.outcome = .stamp ∨ d.outcome = .meter) && e.hasRemark .clamped
    late := false }

/-- R101: the LATE answer. -/
def Entry.lateAnswer (e : Entry) (ts : TraySet) : DispatchAnswer :=
  { piece := e.piece, kind := .cullLate, turn := .none, stacker := ts.stackers[OutcomeKind.cullLate.code]
    early := false, clamped := false, late := true }

/-- R101, R92: the LATE answer stored, with the provisional disposition. -/
def Entry.storeLate (a : DispatchAnswer) (e : Entry) : Entry :=
  { e with dispatch := some a, disposition := some .cullLate }

/-- R97 to R101: a dispatch read of a matched entry: the new state and the word. -/
def State.answerDispatch (e : Entry) (s : State) : State × DispatchAnswer :=
  match e.dispatch with
  | some a => (s, a)
  | none =>
    match e.decision with
    | some d =>
      let a := e.decidedAnswer d s.cancelEffective s.trays.inForce
      (s.modifyEntry e.piece fun e => { e with dispatch := some a }, a)
    | none =>
      let a := e.lateAnswer s.trays.inForce
      ((s.modifyEntry e.piece (Entry.storeLate a)).raise .lateDispatch, a)

/-- R95, R96: a dispatch read of slot j of the window at `base`. -/
def State.dispatchSlot (gate : Option Nat) (r : Request) (base : Nat) (acc : State × FillPlan) (j : Nat) :
    State × FillPlan :=
  if gate ≠ some r.source.toNat then acc
  else
    match acc.1.slotEntry j with
    | none => acc
    | some e =>
      let q := acc.1.answerDispatch e
      (q.1, acc.2 ++ planOf r (base + 8 * j) q.2.bytes)

/-- R93: a read's part in the dispatch window, slot by slot. -/
def State.takeDispatchRead (gate : Option Nat) (base : Nat) (r : Request) (acc : State × FillPlan) :
    State × FillPlan :=
  (slotsTouched r base 8 64).foldl (State.dispatchSlot gate r base) acc

/-! ## Print -/

/-- R116: the print answer, row by row. STAMP_OK without a plan, and a kind CULL_LATE without the LATE mark, do not arise
(log entry 14, DESIGN CHOICE). -/
def Entry.printAction (c : Cancel) (e : Entry) : PrintAction :=
  match e.dispatch with
  | none => .skip .notDispatched
  | some a =>
    if a.late then .skip .late
    else
      match a.kind with
      | .cullNone => .skip .culled
      | .cullAmbig => .skip .culled
      | .cullCorner => .skip .culled
      | .cullFault => .skip .culled
      | .cullLate => .skip .late
      | .meter => .skip .notStamp
      | .stampHeld => .skip .routedHeld
      | .stampOk =>
        if c.held then .skip .hold
        else if c.suspended then .skip .suspend
        else
          match e.decision.bind Decision.plan, e.decision.bind Decision.position with
          | some (.print die), some q => .print q.1 q.2 die
          | _, _ => .skip .band

/-- R117: the print action is a misroute. -/
def PrintAction.misroutes : PrintAction → Bool
  | .skip .hold => true
  | .skip .suspend => true
  | _ => false

/-- R115, R117: a print answer stored in the entry. -/
def Entry.storePrint (a : PrintAnswer) (e : Entry) : Entry :=
  ({ e with print := some a } : Entry).addRemarkIf a.action.misroutes .misrouted

/-- R114 to R117: a print read of a matched entry: the new state and the record. -/
def State.answerPrint (e : Entry) (s : State) : State × PrintAnswer :=
  match e.print with
  | some a => (s, a)
  | none =>
    let a : PrintAnswer := { piece := e.piece, action := e.printAction s.cancel }
    (s.modifyEntry e.piece (Entry.storePrint a), a)

/-- R113: a print read of slot j of the window at `base`. -/
def State.printSlot (printer : Option Nat) (r : Request) (base : Nat) (acc : State × FillPlan) (j : Nat) :
    State × FillPlan :=
  if printer ≠ some r.source.toNat then acc
  else
    match acc.1.slotEntry j with
    | none => acc
    | some e =>
      let q := acc.1.answerPrint e
      (q.1, acc.2 ++ planOf r (base + 16 * j) q.2.bytes)

/-- R111: a read's part in the print window, slot by slot. -/
def State.takePrintRead (printer : Option Nat) (base : Nat) (r : Request) (acc : State × FillPlan) :
    State × FillPlan :=
  (slotsTouched r base 16 64).foldl (State.printSlot printer r base) acc

/-! ## Live window -/

/-- R145: a read's part in the live window is answered from one snapshot and changes nothing. -/
def State.takeLiveRead (base : Nat) (r : Request) (acc : State × FillPlan) : State × FillPlan :=
  (acc.1, acc.2 ++ planOf r base acc.1.liveBytes)

end Sys2Proof.Machine
end

