-- ==== Sys2Proof/Machine/Decision.lean ====
section
/-! DEFINITION. The decision unit (chapter 3). It holds no state of its own: each decision is a function of the entry, the
settings of its generation and the tray set in force. -/

namespace Sys2Proof.Machine

/-! ## Facing map and candidates -/

/-- R48: the turn code an action gives. -/
def Action.turn : Action → Turn
  | .pass => .pass
  | .rotate => .rotate
  | .flip => .flip
  | .flipRotate => .flipRotate
  | .cull => .none

/-- The zone record of a corner and class. -/
def Entry.zone (e : Entry) (c : Corner) (k : Cls) : ZoneRecord := e.zones[c].get k

/-- A candidate of a full decision (R49): corner, class, and the zone record it stands for. -/
structure Candidate where
  corner : Corner
  cls    : Cls
  zone   : ZoneRecord
  deriving DecidableEq, Repr

/-- The 24 pairs of corner and class, in corner order and then PH, COL, FL (section 2.5). -/
def zonePairs : List (Corner × Cls) :=
  (List.finRange 8).flatMap fun c => [(c, .ph), (c, .col), (c, .fl)]

/-- R49: every record that is DONE and present enters the list once. -/
def Entry.candidates (e : Entry) : List Candidate :=
  zonePairs.filterMap fun p =>
    let z := e.zone p.1 p.2
    if z.done && z.present then some { corner := p.1, cls := p.2, zone := z } else none

/-- R50: the order of two candidates: class rank ascending, score descending, corner ascending. -/
def Candidate.before (ranks : PerClass Nat) (a b : Candidate) : Bool :=
  if ranks.get a.cls ≠ ranks.get b.cls then decide (ranks.get a.cls < ranks.get b.cls)
  else if a.zone.score ≠ b.zone.score then decide (b.zone.score < a.zone.score)
  else decide (a.corner.val < b.corner.val)

/-- A candidate put in its place in an ordered list. -/
def insertCandidate (ranks : PerClass Nat) (c : Candidate) : List Candidate → List Candidate
  | [] => [c]
  | d :: ds => if c.before ranks d then c :: d :: ds else d :: insertCandidate ranks c ds

/-- R50: the ordered list. -/
def rankCandidates (ranks : PerClass Nat) : List Candidate → List Candidate
  | [] => []
  | c :: cs => insertCandidate ranks c (rankCandidates ranks cs)

/-- R46: the winner's fields from its zone record. -/
def Candidate.winner (c : Candidate) : Winner :=
  { corner := c.corner, cls := c.cls, score := c.zone.score, xc := c.zone.xc, yc := c.zone.yc, e := c.zone.e }

/-- R52: the runner-up: the first candidate after W with W's class and a differing action. -/
def runnerUp (facing : Vector Action 8) (w : Candidate) (rest : List Candidate) : Option Candidate :=
  rest.find? fun c => decide (c.cls = w.cls) && decide (facing[c.corner] ≠ facing[w.corner])

/-- The verdict of a full decision before its position and plan: outcome, turn code and winner. -/
structure Verdict where
  outcome : Outcome
  turn    : Turn
  winner  : Option Winner
  deriving DecidableEq, Repr

/-- R53: the outcome of a faced winner: STAMP for PH and COL, METER for FL. -/
def facedOutcome : Cls → Outcome
  | .ph => .stamp
  | .col => .stamp
  | .fl => .meter

/-- R51 to R53: the outcome of a ranked list. -/
def verdictOf (ds : DecisionSettings) (facing : Vector Action 8) : List Candidate → Verdict
  | [] => { outcome := .cullNone, turn := .none, winner := none }
  | w :: rest =>
    let action := facing[w.corner]
    if action = .cull then
      { outcome := .cullCorner, turn := .none, winner := some w.winner }
    else
      match runnerUp facing w rest with
      | some r =>
        if w.zone.score * ds.margin ≤ r.zone.score * 100 then
          { outcome := .cullAmbig, turn := .none, winner := some w.winner }
        else
          { outcome := facedOutcome w.cls, turn := action.turn, winner := some w.winner }
      | none => { outcome := facedOutcome w.cls, turn := action.turn, winner := some w.winner }

/-- R49 to R53: the verdict of a full decision. -/
def Entry.verdict (st : Settings) (ts : TraySet) (e : Entry) : Verdict :=
  verdictOf st.decision ts.facing (rankCandidates st.decision.ranks e.candidates)

/-! ## Post-turn frame and print plan -/

/-- R56: x' of a winner under a turn, n being the line count of its side. -/
def postX (turn : Turn) (n xc : Nat) : Nat :=
  match turn with
  | .rotate => n - 1 - xc
  | .flipRotate => n - 1 - xc
  | _ => xc

/-- R56, R57: y' of a winner under a turn, held at 0 where e − y_c would fall below it. -/
def postY (turn : Turn) (e yc : Nat) : Nat :=
  match turn with
  | .flip => e - yc
  | .rotate => e - yc
  | _ => yc

/-- R57: whether y' was held at 0. -/
def postYHeld (turn : Turn) (e yc : Nat) : Bool :=
  match turn with
  | .flip => decide (e < yc)
  | .rotate => decide (e < yc)
  | _ => false

/-- The result of the band test on one axis (R58). -/
inductive AxisResult
  | kept
  | clamped (v : Nat)
  | beyond
  deriving DecidableEq, Repr

/-- R58: one axis against the band lo..hi with the tolerance. -/
def axisTest (lo hi tolerance v : Nat) : AxisResult :=
  if v < lo then
    if lo - v ≤ tolerance then .clamped lo else .beyond
  else if hi < v then
    if v - hi ≤ tolerance then .clamped hi else .beyond
  else .kept

/-- R59: the value an axis takes in a PRINT plan. -/
def AxisResult.value (v : Nat) : AxisResult → Nat
  | .clamped w => w
  | _ => v

/-- Whether an axis was clamped. -/
def AxisResult.isClamped : AxisResult → Bool
  | .clamped _ => true
  | _ => false

/-- R60: the die of the die map for a stamp class; METER decisions carry none. -/
def TraySet.die (ts : TraySet) : Cls → Nat
  | .ph => ts.diePh
  | .col => ts.dieCol
  | .fl => 0

/-- What a written decision adds to the entry and to the flags. -/
structure Written where
  decision : Decision
  clamped  : Bool
  bandSkip : Bool
  deriving DecidableEq, Repr

/-- R53, R56 to R60: the decision part of a verdict, with CLAMPED and BAND_SKIP. `n` is the line count of W's side. -/
def formDecision (st : Settings) (ts : TraySet) (kind : DecisionKind) (n : Nat) (v : Verdict) : Written :=
  let bare : Decision :=
    { kind := kind, outcome := v.outcome, turn := v.turn, winner := v.winner, position := none, plan := none }
  match v.winner with
  | none => { decision := bare, clamped := false, bandSkip := false }
  | some w =>
    let x := postX v.turn n w.xc
    let y := postY v.turn w.e w.yc
    let held := postYHeld v.turn w.e w.yc
    match v.outcome with
    | .stamp =>
      let ax := axisTest st.decision.xMin st.decision.xMax st.decision.tolerance x
      let ay := axisTest st.decision.yMin st.decision.yMax st.decision.tolerance y
      if ax = .beyond ∨ ay = .beyond then
        { decision := { bare with position := some (x, y), plan := some .skipBand }
          clamped := held, bandSkip := true }
      else
        { decision := { bare with
            position := some (ax.value x, ay.value y), plan := some (.print (ts.die w.cls)) }
          clamped := held || ax.isClamped || ay.isClamped, bandSkip := false }
    | .meter =>
      { decision := { bare with position := some (x, y), plan := some .skipNotStamp }
        clamped := held, bandSkip := false }
    | _ => { decision := bare, clamped := false, bandSkip := false }

/-- The line count of the side a verdict's winner lies on. -/
def Entry.winnerCount (e : Entry) (v : Verdict) : Nat :=
  match v.winner with
  | some w => (e.sides.get (sideOfCorner w.corner)).n
  | none => 0

/-! ## The full decision -/

/-- R54, R55: the full decision in the entry, and whether BAND_SKIP is set. A decision that stands is compared with. -/
def Entry.takeFull (st : Settings) (ts : TraySet) (e : Entry) : Entry × Bool :=
  let v := e.verdict st ts
  match e.decision with
  | some d => (e.addRemarkIf (decide (d.outcome ≠ v.outcome ∨ d.turn ≠ v.turn)) .earlyConflict, false)
  | none =>
    let w := formDecision st ts .full (e.winnerCount v) v
    (({ e with decision := some w.decision } : Entry).addRemarkIf w.clamped .clamped, w.bandSkip)

/-! ## The early decision -/

/-- The class of rank 1 (R61). -/
def rankOneClass (ranks : PerClass Nat) : Cls :=
  if ranks.ph = 1 then .ph else if ranks.col = 1 then .col else .fl

/-- R62: a LEAD corner qualifies: present, at least E hits, and an action of PASS or FLIP. -/
def Entry.qualifies (st : Settings) (ts : TraySet) (e : Entry) (c : Corner) : Bool :=
  let k := rankOneClass st.decision.ranks
  let z := e.zone c k
  z.present && decide ((st.tests.get k).earlyHits ≤ z.hits) &&
    (decide (ts.facing[c] = .pass) || decide (ts.facing[c] = .flip))

/-- R62: the corner an early decision is taken from, if one is. -/
def Entry.earlyCorner (st : Settings) (ts : TraySet) (sd : Side) (e : Entry) : Option Corner :=
  let k := rankOneClass st.decision.ranks
  let c0 := cornerOf sd .lead .top
  let c1 := cornerOf sd .lead .bottom
  match e.qualifies st ts c0, e.qualifies st ts c1 with
  | false, false => none
  | true, false => some c0
  | false, true => some c1
  | true, true =>
    if ts.facing[c0] ≠ ts.facing[c1] then none
    else if (e.zone c0 k).score < (e.zone c1 k).score then some c1
    else some c0

/-- R61: the early check is made. -/
def Entry.earlyChecked (st : Settings) (e : Entry) : Bool :=
  e.running && e.decision.isNone && e.dispatch.isNone &&
    decide ((st.tests.get (rankOneClass st.decision.ranks)).earlyHits ≠ 0)

/-- R63: the verdict of an early decision from a corner. -/
def Entry.earlyVerdict (st : Settings) (ts : TraySet) (e : Entry) (c : Corner) : Verdict :=
  let k := rankOneClass st.decision.ranks
  { outcome := facedOutcome k, turn := ts.facing[c].turn
    winner := some ({ corner := c, cls := k, zone := e.zone c k } : Candidate).winner }

/-- R61 to R63: the early check at a leading-complete notice, in the entry, and whether BAND_SKIP is set. -/
def Entry.takeEarly (st : Settings) (ts : TraySet) (sd : Side) (e : Entry) : Entry × Bool :=
  if e.earlyChecked st then
    match e.earlyCorner st ts sd with
    | some c =>
      let v := e.earlyVerdict st ts c
      let w := formDecision st ts .early (e.winnerCount v) v
      ((({ e with decision := some w.decision } : Entry).addRemark .early).addRemarkIf w.clamped .clamped,
        w.bandSkip)
    | none => (e, false)
  else (e, false)

/-! ## The fault decision -/

/-- R66: the remark a piece fault carries. -/
def PieceFault.remark : PieceFault → Remark
  | .truncated => .truncated
  | .overlong => .overlong
  | .double => .double
  | .lineFaults => .lineFaults
  | .sideMissing => .sideMissing

/-- R64: the fault decision. -/
def Decision.faulted : Decision :=
  { kind := .fault, outcome := .cullFault, turn := .none, winner := none, position := none, plan := none }

/-- R64, R65: a piece fault in the entry, before and after the dispatch answer. -/
def Entry.takeFault (f : PieceFault) (e : Entry) : Entry :=
  match e.dispatch with
  | none => ({ e with decision := some Decision.faulted } : Entry).addRemark f.remark
  | some _ => (e.addRemark .faultAfterDispatch).addRemark f.remark

end Sys2Proof.Machine
end

