-- ==== Sys2Proof/Machine/Zone.lean ====
section
/-! DEFINITION. The zone engine (chapter 2): class tests, bands, line tallies, zone records, the history ring, and zone
results. These are functions of one line, one record, one side's zone work or one entry; Machine/Inspect.lean puts them to
work in the state. -/

namespace Sys2Proof.Machine

/-! ## Class tests -/

/-- The three corrected values of a sample (R23). -/
structure Sample where
  v : Nat
  r : Nat
  l : Nat
  deriving DecidableEq, Repr

/-- The value of one channel. -/
def Sample.get (c : Sample) : Channel → Nat
  | .v => c.v
  | .r => c.r
  | .l => c.l

/-- How a comparison passes (R25). -/
inductive Pass
  | fails
  | plain
  | underPass
  | overPass
  deriving DecidableEq, Repr

/-- R25: one comparison judges one corrected value. All comparisons are strict. -/
def Comparison.judge (q : Comparison) (c : Nat) : Pass :=
  match q.mode with
  | .above => if q.hi < c then .plain else .fails
  | .below => if c < q.lo then .plain else .fails
  | .inside => if q.lo < c ∧ c < q.hi then .plain else .fails
  | .outside => if c < q.lo then .underPass else if q.hi < c then .overPass else .fails

/-- R26: a sample hits a class. -/
def ClassTest.hit (t : ClassTest) (c : Sample) : Bool :=
  decide (t.primary.judge (c.get t.primary.channel) ≠ .fails) &&
    (match t.secondary with
      | none => true
      | some q => decide (q.judge (c.get q.channel) ≠ .fails))

/-- R26: a hit is an over-hit when the primary comparison passed as an over-pass. -/
def ClassTest.overHit (t : ClassTest) (c : Sample) : Bool :=
  t.hit c && decide (t.primary.judge (c.get t.primary.channel) = .overPass)

/-! ## Sample correction -/

/-- R23: one corrected value. -/
def ChannelCorrection.correct (q : ChannelCorrection) (raw : Nat) : Nat :=
  min 1023 ((raw - q.black) * q.gain / 256)

/-- R23, R185: the corrected values of a sample word; its two top bits are not used. -/
def Correction.sample (q : Correction) (w : Nat) : Sample :=
  { v := q.v.correct (bits w 0 10), r := q.r.correct (bits w 10 10), l := q.l.correct (bits w 20 10) }

/-! ## Bands and tallies -/

/-- R27: whether a sample index lies in a band of a line. -/
def inBand (zh t u y : Nat) : Edge → Bool
  | .top => decide (t ≤ y) && decide (y ≤ min u (t + zh - 1))
  | .bottom => decide (max t (u + 1 - zh) ≤ y) && decide (y ≤ u)

/-- R31: one tally after a sample. -/
def Tally.take (isOver : Bool) (yRel : Nat) (q : Tally) : Tally :=
  { h := q.h + 1, overs := q.overs + (if isOver then 1 else 0), ysum := q.ysum + yRel }

/-- R31: the tallies of one band after a sample that lies in it. -/
def bandTake (tests : PerClass ClassTest) (c : Sample) (yRel : Nat) (b : PerClass Tally) : PerClass Tally :=
  b.mapWith fun k q =>
    if (tests.get k).hit c then q.take ((tests.get k).overHit c) yRel else q

/-- R31: the six tallies after a sample. -/
def LineTallies.take (st : Settings) (t u y : Nat) (c : Sample) (q : LineTallies) : LineTallies :=
  { top := if inBand st.geometry.zh t u y .top then bandTake st.tests c (y - t) q.top else q.top
    bottom := if inBand st.geometry.zh t u y .bottom then bandTake st.tests c (y - t) q.bottom else q.bottom }

/-- R30, R31: a sample arrival at a side's zone work: a set that belongs to another line is first zeroed. -/
def ZoneWork.takeSample (st : Settings) (piece x t u y : Nat) (c : Sample) (z : ZoneWork) : ZoneWork :=
  let base := if z.line = some (piece, x) then z.tallies else LineTallies.zero
  { z with line := some (piece, x), tallies := base.take st t u y c }

/-- R30: the tallies of a line, zero where the set belongs to another line or none. -/
def ZoneWork.talliesOf (piece x : Nat) (z : ZoneWork) : LineTallies :=
  if z.line = some (piece, x) then z.tallies else LineTallies.zero

/-- R32 step 4, R33 step 3: the tally set is zeroed and holds no line. -/
def ZoneWork.zeroTallies (z : ZoneWork) : ZoneWork :=
  { z with line := none, tallies := LineTallies.zero }

/-- R36: the history ring holds up to 256 entries; the oldest is overwritten. -/
def ringCapacity : Nat := 256

/-- R36: a ring entry is written as the newest. -/
def ZoneWork.pushRing (e : RingEntry) (z : ZoneWork) : ZoneWork :=
  { z with ring :=
      (if z.ring.length < ringCapacity then z.ring else z.ring.drop (z.ring.length + 1 - ringCapacity)) ++ [e] }

/-! ## Zone records -/

/-- R34: a line added to a NOT_DONE record. -/
def ZoneRecord.addLine (x extent : Nat) (q : Tally) (z : ZoneRecord) : ZoneRecord :=
  if z.done then z
  else
    { z with
      lines := z.lines + 1
      hits := z.hits + q.h
      overs := z.overs + q.overs
      xsum := z.xsum + x * q.h
      ysum := z.ysum + q.ysum
      esum := z.esum + extent }

/-- R38 to R40: the result of a record at its completion; the record becomes DONE. -/
def ZoneRecord.complete (t : ClassTest) (z : ZoneRecord) : ZoneRecord :=
  if z.done then z
  else
    { z with
      done := true
      present := decide (t.minLines ≤ z.lines) && decide (t.minHits ≤ z.hits)
      score := min 65535 (z.hits * t.weight / 16)
      xc := if z.lines = 0 then 0 else (2 * z.xsum + z.hits) / (2 * z.hits)
      yc := if z.lines = 0 then 0 else (2 * z.ysum + z.hits) / (2 * z.hits)
      e := if z.lines = 0 then 0 else (2 * z.esum + z.lines) / (2 * z.lines) }

/-- A change of the three records of one corner. -/
def Entry.modifyCorner (c : Corner) (f : Cls → ZoneRecord → ZoneRecord) (e : Entry) : Entry :=
  { e with zones := e.zones.set c (e.zones[c].mapWith f) }

/-- R32, R34: a line is added to one corner for each class it qualifies for. -/
def Entry.addToCorner (st : Settings) (c : Corner) (x extent : Nat) (b : PerClass Tally) (e : Entry) : Entry :=
  e.modifyCorner c fun k z =>
    if (st.tests.get k).runFloor ≤ (b.get k).h then z.addLine x extent (b.get k) else z

/-- R34: a line is added to the two corners of one end of a side. -/
def Entry.addLine (st : Settings) (sd : Side) (en : End) (x extent : Nat) (q : LineTallies) (e : Entry) : Entry :=
  (e.addToCorner st (cornerOf sd en .top) x extent q.top).addToCorner st (cornerOf sd en .bottom) x extent q.bottom

/-- R35, R37: the six records of one end of a side become DONE. -/
def Entry.completeEnd (st : Settings) (sd : Side) (en : End) (e : Entry) : Entry :=
  (e.modifyCorner (cornerOf sd en .top) fun k z => z.complete (st.tests.get k)).modifyCorner
    (cornerOf sd en .bottom) fun k z => z.complete (st.tests.get k)

/-- R37 step 2: the ring entries of the trailing zones, oldest first: x ≥ n − zw, or all when n < zw, unfaulted. -/
def trailingEntries (zw n : Nat) (ring : List RingEntry) : List RingEntry :=
  ring.filter fun q => decide (n - zw ≤ q.x) && !q.faulted

/-- R37 steps 2 and 3: the TRAIL corners are built from the ring and completed. -/
def Entry.buildTrailing (st : Settings) (sd : Side) (n : Nat) (ring : List RingEntry) (e : Entry) : Entry :=
  ((trailingEntries st.geometry.zw n ring).foldl
    (fun e q => e.addLine st sd .trail q.x q.extent q.tallies) e).completeEnd st sd .trail

end Sys2Proof.Machine
end

