-- ==== Sys2Proof/Machine/Inspect.lean ====
section
/-! DEFINITION. The events of one piece's inspection in the state: piece faults (R20, R64 to R66), the notices of the zone
engine and the decisions they lead to (R35, R37, R54, R61), line handovers (R32, R33) and side closes (R18, R37). -/

namespace Sys2Proof.Machine

/-! ## Piece faults -/

/-- R20, R64 to R66: a piece fault is raised against an entry. The first one while inspection runs finishes it. -/
def State.pieceFault (piece : Nat) (f : PieceFault) (s : State) : State :=
  match s.entry? piece with
  | none => s
  | some e =>
    let t := s.modifyEntry piece (Entry.takeFault f)
    if e.running then (t.finishInspection piece).dropZoneWork piece else t

/-- R20: the fault limit check, made while the piece's inspection is running. -/
def State.faultLimitCheck (piece : Nat) (s : State) : State :=
  match s.entry? piece with
  | none => s
  | some e =>
    if e.running ∧
        (s.settingsOf e.generation).geometry.lineFaultLimit < e.sides.face.faulted + e.sides.back.faulted then
      s.pieceFault piece .lineFaults
    else s

/-! ## Notices to the decision unit -/

/-- R61 to R63: a leading-complete notice. -/
def State.leadingNotice (sd : Side) (piece : Nat) (s : State) : State :=
  match s.entry? piece with
  | none => s
  | some e =>
    let st := s.settingsOf e.generation
    (s.modifyEntry piece fun e => (e.takeEarly st s.trays.inForce sd).1).raiseIf
      (e.takeEarly st s.trays.inForce sd).2 .bandSkip

/-- R54: both side records CLOSED and the inspection running. -/
def Entry.fullDue (e : Entry) : Bool :=
  e.running && decide (e.sides.face.state = .closed) && decide (e.sides.back.state = .closed)

/-- R54, R55: a side-closed notice: the full decision is taken when it is due, and the inspection finishes. -/
def State.closedNotice (piece : Nat) (s : State) : State :=
  match s.entry? piece with
  | none => s
  | some e =>
    if e.fullDue then
      let st := s.settingsOf e.generation
      ((s.modifyEntry piece fun e => (e.takeFull st s.trays.inForce).1).raiseIf
        (e.takeFull st s.trays.inForce).2 .bandSkip).finishInspection piece
    else s

/-! ## Line handovers -/

/-- R35: the leading zones of a side complete: the six records become DONE, the zone work BODY, and the decision unit is
told. -/
def State.completeLeading (sd : Side) (piece : Nat) (st : Settings) (s : State) : State :=
  let s := s.modifyEntry piece (Entry.completeEnd st sd .lead)
  let s := s.setZone sd { s.zones.get sd with state := .body }
  s.leadingNotice sd piece

/-- R32, R33: the handover of a line, ended or faulted. A faulted line has zero tallies and adds to no corner. -/
def State.handLine (sd : Side) (piece x extent : Nat) (faulted : Bool) (s : State) : State :=
  match s.entry? piece with
  | none => s
  | some e =>
    let st := s.settingsOf e.generation
    let z := s.zones.get sd
    if z.state = .idle then s
    else
      let q := if faulted then LineTallies.zero else z.talliesOf piece x
      let s := s.setZone sd (z.pushRing { x := x, faulted := faulted, extent := extent, tallies := q })
      let s := if z.state = .leading ∧ faulted = false ∧ x < st.geometry.zw then
          s.modifyEntry piece (Entry.addLine st sd .lead x extent q)
        else s
      let s := if z.state = .leading ∧ st.geometry.zw ≤ x + 1 then s.completeLeading sd piece st else s
      s.setZone sd (s.zones.get sd).zeroTallies

/-- R31: a corrected sample is handed to the zone engine. -/
def State.handSample (sd : Side) (ln : Line) (w : Nat) (s : State) : State :=
  match s.entry? ln.piece with
  | none => s
  | some e =>
    let st := s.settingsOf e.generation
    s.setZone sd ((s.zones.get sd).takeSample st ln.piece ln.x ln.top ln.bottom ln.next
      ((st.correction.get sd).sample w))

/-- R37: a side close with the inspection running: leading completion, trailing build, release of the side, notice. -/
def State.zoneClose (sd : Side) (piece n : Nat) (st : Settings) (s : State) : State :=
  let s := if (s.zones.get sd).state = .leading then s.completeLeading sd piece st else s
  let s := s.modifyEntry piece (Entry.buildTrailing st sd n (s.zones.get sd).ring)
  let s := s.setZone sd ZoneWork.idle
  s.closedNotice piece

/-- R18: a side closes at the end of a TRAIL line at position x: OPEN becomes CLOSED with n = x + 1. -/
def State.sideClose (sd : Side) (piece x : Nat) (s : State) : State :=
  match s.entry? piece with
  | none => s
  | some e =>
    if (e.sides.get sd).state = .opened then
      let t := s.modifyEntry piece (Entry.modifySide sd fun r => { r with state := .closed, n := x + 1 })
      if e.running then t.zoneClose sd piece (x + 1) (s.settingsOf e.generation) else t
    else s

/-- R29: a side open starts the side's zone work while the inspection is running. -/
def State.zoneOpen (sd : Side) (piece : Nat) (s : State) : State :=
  match s.entry? piece with
  | some e =>
    if e.running then
      s.setZone sd { ZoneWork.idle with state := .leading, owner := some piece }
    else s
  | none => s

end Sys2Proof.Machine
end

