-- ==== Sys2Proof/Machine/Track.lean ====
section
/-! DEFINITION. The track table (chapter 4): retirement and disposition, forcing out, piece open, missing sides, exit words
and aging, the end of a drain, and the run modes. -/

namespace Sys2Proof.Machine

/-! ## Disposition and retirement -/

/-- Why an entry retires (R90). -/
inductive RetireCause
  | exit
  | lost
  | aborted
  deriving DecidableEq, Repr

/-- The class of the decision part's winner. -/
def Entry.winnerClass (e : Entry) : Option Cls := (e.decision.bind Decision.winner).map Winner.cls

/-- R91 row 7: PRINT, with the print status absent or OK. -/
def Entry.printedWell (e : Entry) : Bool :=
  (match e.print with
    | some { piece := _, action := .print _ _ _ } => true
    | _ => false) &&
  (match e.printStatus with
    | none => true
    | some .ok => true
    | _ => false)

/-- R91 rows 4 to 8: the disposition a dispatch answer gives. STAMP_OK with a winner that is no stamp does not arise (log
entry 14, DESIGN CHOICE). -/
def Entry.dispatchedDisposition (e : Entry) : Disposition :=
  match e.dispatch with
  | none => .cullFault
  | some a =>
    match a.kind with
    | .cullNone => .cullNone
    | .cullAmbig => .cullAmbig
    | .cullCorner => .cullCorner
    | .cullFault => .cullFault
    | .cullLate => .cullLate
    | .meter => .meter
    | .stampHeld => .facedUncancelled
    | .stampOk =>
      if e.printedWell then
        match e.winnerClass with
        | some .ph => .facedPh
        | some .col => .facedColour
        | _ => .facedUncancelled
      else .facedUncancelled

/-- R91: the disposition at retirement. -/
def Entry.dispositionFor (cause : RetireCause) (e : Entry) : Disposition :=
  match cause with
  | .aborted => .aborted
  | .lost => .lost
  | .exit => if e.disposition = some .cullLate then .cullLate else e.dispatchedDisposition

/-- R91 row 7: the remark PRINT_UNCONFIRMED, when the disposition is by row 7 and the print status is absent. -/
def Entry.unconfirmed (cause : RetireCause) (e : Entry) : Bool :=
  decide (e.dispositionFor cause = .facedPh ∨ e.dispositionFor cause = .facedColour) && e.printStatus.isNone

/-- R90 step 1: the entry with its disposition written. -/
def Entry.retired (cause : RetireCause) (e : Entry) : Entry :=
  ({ e with disposition := some (e.dispositionFor cause) } : Entry).addRemarkIf (e.unconfirmed cause)
    .printUnconfirmed

/-- R22: a parser that is IN_LINE on a line of the piece goes to SKIPPING, whether or not the piece's inspection still runs
(log entry 11, DEDUCED). -/
def Parser.skipFor (piece : Nat) : Parser → Parser
  | .inLine ln => if ln.piece = piece then .skipping else .inLine ln
  | p => p

/-- R90 steps 2 and 3: the piece's inspection ends and the entry is removed. -/
def State.removeEntry (piece : Nat) (s : State) : State :=
  let s := { s with
    zones := s.zones.map (ZoneWork.dropFor piece)
    parsers := s.parsers.map (Parser.skipFor piece)
    entries := s.entries.filter fun e => decide (e.piece ≠ piece) }
  s.releaseGenerations

/-- R90: a retirement, with the limit check of R132 after its piece record. -/
def State.retire (cause : RetireCause) (piece : Nat) (s : State) : State :=
  match s.entry? piece with
  | none => s
  | some e =>
    let d := e.dispositionFor cause
    (((s.removeEntry piece).count d.code).formPieceRecord (e.retired cause) d).limitCheck

/-! ## Opening a piece -/

/-- R71: the table holds at most 12 entries. -/
def tableCapacity : Nat := 12

/-- R74: an open that finds 12 entries retires the oldest as LOST and sets TABLE_FORCED. -/
def State.forceOut (s : State) : State :=
  match s.entries with
  | [] => s
  | e :: _ =>
    if tableCapacity ≤ s.entries.length then (s.retire .lost e.piece).raise .tableForced else s

/-- R76: the pieces whose side is marked MISSING: older than the opening entry, with the side NOT_SEEN, oldest first. -/
def State.missingPieces (sd : Side) (piece : Nat) (s : State) : List Nat :=
  ((s.entries.takeWhile fun e => decide (e.piece ≠ piece)).filter fun e =>
    decide ((e.sides.get sd).state = .notSeen)).map Entry.piece

/-- R76: one entry's side is marked MISSING and SIDE_MISSING is raised against it. -/
def State.markMissing (sd : Side) (s : State) (piece : Nat) : State :=
  (s.modifyEntry piece (Entry.modifySide sd fun r => { r with state := .missing, n := 0 })).pieceFault piece
    .sideMissing

/-- R76: the marking at an accepted LEAD on a side of a piece. -/
def State.markMissingSides (sd : Side) (piece : Nat) (s : State) : State :=
  (s.missingPieces sd piece).foldl (State.markMissing sd) s

/-- R73 steps 1 to 4: forcing out, the generation, the entry at the young end, the opened counter. -/
def State.openEntry (piece : Nat) (s : State) : State :=
  let s := s.forceOut.generationAtOpen
  ({ s with entries := s.entries ++ [Entry.fresh piece s.gens.newest.number] } : State).countOpened

/-- R85: a LEAD in DRAIN for a piece without an entry. -/
def State.countUninspected (piece : Nat) (s : State) : State :=
  if s.lastUninspected = some piece then s
  else ({ s with lastUninspected := some piece } : State).count uninspectedCode

/-! ## Drain end -/

/-- R83: the end of a drain: a DRAIN close is requested, the mode becomes STANDBY, a dirty staged set is applied. -/
def State.drainEnd (s : State) : State := (s.requestClose .drain).enterStandby

/-- R83: the drain ends when the table is empty while the mode is DRAIN. -/
def State.drainEndIfDue (s : State) : State :=
  if s.mode = .drain ∧ s.entries = [] then s.drainEnd else s

/-! ## Exit words and aging -/

/-- R87: what an exit word writes into its entry before the retirement. -/
def Entry.takeExit (stacker : Nat) (jam : Bool) (e : Entry) : Entry :=
  let used := min stacker 15
  let e := ({ e with stacker := some used } : Entry).addRemarkIf jam .jam
  match e.dispatch with
  | some a => e.addRemarkIf (decide (used ≠ a.stacker)) .misstack
  | none => e.addRemark .earlyExit

/-- R89: the entries older than a retired piece have their age incremented. -/
def State.ageOlder (olderPieces : List Nat) (s : State) : State :=
  { s with entries := s.entries.map fun e => if e.piece ∈ olderPieces then { e with age := e.age + 1 } else e }

/-- R89: one entry retires by aging. -/
def State.loseAged (s : State) (piece : Nat) : State := (s.retire .lost piece).raise .pieceLost

/-- R89: every entry at or above the age limit in force retires as LOST, oldest first. The limit is read once (log entry
8, DEDUCED). -/
def State.retireAged (s : State) : State :=
  ((s.entries.filter fun e => decide (s.trays.inForce.ageLimit ≤ e.age)).map Entry.piece).foldl
    State.loseAged s

/-- The pieces that stand older than a piece. -/
def State.olderThan (piece : Nat) (s : State) : List Nat :=
  (s.entries.takeWhile fun e => decide (e.piece ≠ piece)).map Entry.piece

/-- R87, R89, R83: an exit word that passed R86 retires its entry, ages the older ones, and may end a drain. -/
def State.exit (piece stacker : Nat) (jam : Bool) (s : State) : State :=
  let older := s.olderThan piece
  let s := (s.modifyEntry piece (Entry.takeExit stacker jam)).retire .exit piece
  (s.ageOlder older).retireAged.drainEndIfDue

/-- R86, R187: one exit word event: slot j of the window at `base`, in a write from source `src`. -/
def State.exitWord (gate : Option Nat) (r : Request) (base : Nat) (s : State) (j : Nat) : State :=
  if gate ≠ some r.source.toNat then s.raise .strayWrite
  else
    match writtenBytes r (base + 8 * j) 8 with
    | none => s.raise .strayWrite
    | some bs =>
      let piece := half bs 0
      if piece % 64 ≠ j then s.raise .strayWrite
      else
        match s.entry? piece with
        | none => s.raise .strayWrite
        | some _ => s.exit piece (byteAt bs 2).toNat (bitOf (byteAt bs 3).toNat 0)

/-- R86: the exit window: 64 slots of 8 bytes. -/
def exitWindowSize : Nat := 512

/-- R86: a write's part in the exit window, taken slot by slot in RUN and DRAIN. -/
def State.takeExitWrite (gate : Option Nat) (base : Nat) (r : Request) (s : State) : State :=
  if s.mode = .standby then s
  else (slotsTouched r base 8 64).foldl (State.exitWord gate r base) s

/-! ## Run modes -/

/-- R81: the first RUN precondition that fails. -/
def State.runRefusal (s : State) : RunReason :=
  if s.setup.map = none then .noMap
  else if s.setup.sources = none then .noSources
  else if s.path.lanes.img.state = .up ∧ s.path.lanes.ctl.state = .up ∧ s.path.lanes.rpt.state = .up ∧
      s.path.lanes.blk.state = .up then .none
  else .laneNotUp

/-- R81: the RUN directive. -/
def State.directRun (s : State) : State :=
  match s.mode with
  | .run => s
  | .drain => { s with mode := .run }
  | .standby =>
    match s.runRefusal with
    | .none => ({ s with mode := .run } : State).idleInspection
    | reason =>
      let s := s.raise .runRefused
      { s with status := { s.status with runReason := reason } }

/-- R82: the DRAIN directive. -/
def State.directDrain (s : State) : State :=
  match s.mode with
  | .run => ({ s with mode := .drain } : State).drainEndIfDue
  | _ => s.refuse .wrongMode

/-- R84 step 1: one entry retires ABORTED. -/
def State.abortPiece (s : State) (piece : Nat) : State := s.retire .aborted piece

/-- R84: the STBY directive. In DRAIN too its close has reason ABORT alone (log entry 9, DEDUCED). -/
def State.directStby (s : State) : State :=
  match s.mode with
  | .standby => s
  | _ => (((s.entries.map Entry.piece).foldl State.abortPiece s).requestClose .abort).enterStandby

end Sys2Proof.Machine
end

