-- ==== Sys2Proof/Machine/Parser.lean ====
section
/-! DEFINITION. The line parsers (chapter 1): image writes beat by beat, header checks, samples, line completion and line
faults. -/

namespace Sys2Proof.Machine

/-! ## Headers -/

/-- The fields of a readable header (section 10.3, R185). -/
structure Header where
  piece  : Nat
  index  : Nat
  side   : Side
  lead   : Bool
  trail  : Bool
  double : Bool
  samples : Nat
  top    : Nat
  bottom : Nat
  deriving DecidableEq, Repr

/-- Section 10.3: the header in the 16 bytes of a slot's offsets 0 to 15. -/
def Header.ofBytes (bs : List Byte) : Header :=
  let marks := (byteAt bs 4).toNat
  { piece := half bs 0
    index := bits (half bs 2) 0 10
    side := if bitOf marks 0 then .back else .face
    lead := bitOf marks 1
    trail := bitOf marks 2
    double := bitOf marks 3
    samples := bits (half bs 6) 0 10
    top := bits (half bs 8) 0 10
    bottom := bits (half bs 10) 0 10 }

/-- The outcomes of the header check (R6). -/
inductive HeaderCheck
  | malformed
  | duplicate
  | newPiece
  | sideOpen
  | orphan
  | lineLimit
  | mismatch
  | accepted
  deriving DecidableEq, Repr

/-- R6 steps 1 to 4. -/
def Header.isMalformed (sd : Side) (h : Header) : Bool :=
  decide (h.side ≠ sd) || decide (h.samples < 64) || decide (512 < h.samples) ||
    decide (h.bottom < h.top) || decide (h.samples ≤ h.bottom) || (h.lead && decide (h.index ≠ 0))

/-- R6: the header check, step by step. -/
def State.checkHeader (sd : Side) (h : Header) (s : State) : HeaderCheck :=
  if h.isMalformed sd then .malformed
  else
    match s.entry? h.piece with
    | none => if h.lead then .newPiece else .orphan
    | some e =>
      if h.lead then
        if (e.sides.get sd).state = .notSeen then .sideOpen else .duplicate
      else if (e.sides.get sd).state ≠ .opened then .orphan
      else if e.running ∧ (s.settingsOf e.generation).geometry.lineLimit ≤ h.index then .lineLimit
      else if h.index ≠ (e.sides.get sd).expected then .mismatch
      else .accepted

/-- R10, R7: a side becomes OVERLONG with n its expected next index, and OVERLONG is raised. -/
def State.overlong (sd : Side) (piece : Nat) (s : State) : State :=
  (s.modifyEntry piece (Entry.modifySide sd fun r => { r with state := .overlong, n := r.expected })).pieceFault
    piece .overlong

/-- R7, R10: what follows a faulted position while inspection is running: the handover and the fault limit check. -/
def State.handFaulted (sd : Side) (piece x extent : Nat) (running : Bool) (s : State) : State :=
  if running then (s.handLine sd piece x extent true).faultLimitCheck piece else s

/-- R7: a MALFORMED header. -/
def State.malformedHeader (sd : Side) (h : Header) (s : State) : State :=
  let s := (s.raise .lineFault).setParser sd .skipping
  match s.entry? h.piece with
  | none => s
  | some e =>
    let r := e.sides.get sd
    if r.state = .opened then
      if e.running ∧ (s.settingsOf e.generation).geometry.lineLimit ≤ r.expected then
        s.overlong sd h.piece
      else
        (s.modifyEntry h.piece (Entry.modifySide sd fun r =>
          { r with expected := satLine r.expected, faulted := satLine r.faulted })).handFaulted sd h.piece
            r.expected 0 e.running
    else s

/-- R8: a stray line. An ORPHAN of the last-uninspected piece passes without a flag in DRAIN. -/
def State.strayHeader (sd : Side) (orphan : Bool) (h : Header) (s : State) : State :=
  let quiet := orphan && decide (s.mode = .drain) && decide (s.lastUninspected = some h.piece)
  (s.raiseIf (!quiet) .lineFault).setParser sd .skipping

/-- R10: LINE_LIMIT. -/
def State.lineLimitHeader (sd : Side) (h : Header) (s : State) : State :=
  (s.overlong sd h.piece).setParser sd .skipping

/-- R10: MISMATCH, forward and backward. -/
def State.mismatchHeader (sd : Side) (h : Header) (s : State) : State :=
  let s := s.raise .lineFault
  match s.entry? h.piece with
  | none => s.setParser sd .skipping
  | some e =>
    let s :=
      if (e.sides.get sd).expected < h.index then
        (s.modifyEntry h.piece (Entry.modifySide sd fun r =>
          { r with expected := h.index + 1, faulted := satLine r.faulted })).handFaulted sd h.piece
            h.index (h.bottom - h.top) e.running
      else
        let t := s.modifyEntry h.piece (Entry.modifySide sd fun r => { r with faulted := satLine r.faulted })
        if e.running then t.faultLimitCheck h.piece else t
    s.setParser sd .skipping

/-- R11: an accepted header creates the line in progress; DOUBLE is then raised if the header carries it. -/
def State.acceptHeader (sd : Side) (slot : Nat) (h : Header) (s : State) : State :=
  match s.entry? h.piece with
  | none => s
  | some e =>
    let s := s.modifyEntry h.piece (Entry.modifySide sd fun r =>
      { r with
        state := if r.state = .notSeen then .opened else r.state
        expected := h.index + 1
        maxExtent := max r.maxExtent (h.bottom - h.top) })
    let s := s.setParser sd (.inLine
      { piece := h.piece, x := h.index, slot := slot, samples := h.samples, top := h.top, bottom := h.bottom
        lead := h.lead, trail := h.trail, double := h.double, next := 0, inspecting := e.running })
    let s := if h.lead then s.zoneOpen sd h.piece else s
    if h.double then s.pieceFault h.piece .double else s

/-- R9: the other piece whose side record for this side is OPEN becomes TRUNCATED. -/
def State.truncateOpen (sd : Side) (piece : Nat) (s : State) : State :=
  match s.entries.find? fun e => decide (e.piece ≠ piece) && decide ((e.sides.get sd).state = .opened) with
  | none => s
  | some e =>
    (s.modifyEntry e.piece (Entry.modifySide sd fun r => { r with state := .truncated, n := r.expected })).pieceFault
      e.piece .truncated

/-- R9: a LEAD for a piece without an entry: opened in RUN, counted UNINSPECTED in DRAIN. -/
def State.newPieceHeader (sd : Side) (slot : Nat) (h : Header) (s : State) : State :=
  let s := s.truncateOpen sd h.piece
  if s.mode = .run then
    ((s.openEntry h.piece).markMissingSides sd h.piece).acceptHeader sd slot h
  else
    (s.countUninspected h.piece).setParser sd .skipping

/-- R9: a LEAD for a side that is NOT_SEEN of a piece that has an entry. -/
def State.sideOpenHeader (sd : Side) (slot : Nat) (h : Header) (s : State) : State :=
  ((s.truncateOpen sd h.piece).markMissingSides sd h.piece).acceptHeader sd slot h

/-- R6 to R11: the handling of a readable header. -/
def State.takeHeader (sd : Side) (slot : Nat) (h : Header) (s : State) : State :=
  match s.checkHeader sd h with
  | .malformed => s.malformedHeader sd h
  | .duplicate => s.strayHeader sd false h
  | .newPiece => s.newPieceHeader sd slot h
  | .sideOpen => s.sideOpenHeader sd slot h
  | .orphan => s.strayHeader sd true h
  | .lineLimit => s.lineLimitHeader sd h
  | .mismatch => s.mismatchHeader sd h
  | .accepted => s.acceptHeader sd slot h

/-! ## Line completion and line faults -/

/-- R15, R16: the close that follows the end of a line that carries TRAIL. -/
def State.closeIfTrail (sd : Side) (ln : Line) (s : State) : State :=
  if ln.trail then s.sideClose sd ln.piece ln.x else s

/-- R15: line completion. -/
def State.completeLine (sd : Side) (ln : Line) (s : State) : State :=
  let s := s.setParser sd .waitHeader
  let s := if ln.inspecting then s.handLine sd ln.piece ln.x (ln.bottom - ln.top) false else s
  s.closeIfTrail sd ln

/-- R16: a line fault of an accepted line. -/
def State.faultLine (sd : Side) (ln : Line) (s : State) : State :=
  let s := (s.raise .lineFault).setParser sd .skipping
  let s := s.modifyEntry ln.piece (Entry.modifySide sd fun r => { r with faulted := satLine r.faulted })
  (s.handFaulted sd ln.piece ln.x (ln.bottom - ln.top) ln.inspecting).closeIfTrail sd ln

/-! ## Samples and beats -/

/-- R12: one sample in order: handed or absorbed, k advanced, and the line completed at sample S − 1. -/
def State.takeSample (sd : Side) (s : State) (w : Nat) : State :=
  match s.parsers.get sd with
  | .inLine ln =>
    let s := if ln.inspecting then s.handSample sd ln w else s
    let ln' := { ln with next := ln.next + 1 }
    if ln.next + 1 = ln.samples then s.completeLine sd ln' else s.setParser sd (.inLine ln')
  | _ => s

/-- R2, R12: the sample words of the beat that begins at slot offset `b`, if the beat is full; `at` is its address. -/
def beatSamples (r : Request) (aligned : Bool) (samples b addr : Nat) : Option (List Nat) :=
  let first := (b - 16) / 4
  let count := if first + 1 < samples then 8 else 4
  if aligned then
    (writtenBytes r addr count).map fun bs => if count = 8 then [word bs 0, word bs 4] else [word bs 0]
  else none

/-- R12 to R14: one beat at slot offset `b` that is no header's, in the slot that begins at address `slotBase`. -/
def State.takeBeat (sd : Side) (r : Request) (aligned : Bool) (slotBase : Nat) (s : State) (b : Nat) : State :=
  match s.parsers.get sd with
  | .inLine ln =>
    if b < 16 then s.faultLine sd ln
    else if 16 + 4 * ln.samples ≤ b then s
    else if b = 16 + 4 * ln.next then
      match beatSamples r aligned ln.samples b (slotBase + b) with
      | some ws => ws.foldl (State.takeSample sd) s
      | none => s.faultLine sd ln
    else s.faultLine sd ln
  | _ => s

/-- R2: the slot offsets of the beats a write touches, from the first, ascending. -/
def beatOffsets (r : Request) (first : Nat) (aligned : Bool) : List Nat :=
  (List.range (if aligned then r.beats else r.beats + 1)).map fun i => first + 8 * i

/-- R5, R16: a line in progress is faulted when a header write arrives. -/
def State.faultInLine (sd : Side) (s : State) : State :=
  match s.parsers.get sd with
  | .inLine ln => s.faultLine sd ln
  | _ => s

/-- R5: a header write: the line in progress is faulted, and the header is checked or found UNREADABLE, as it is in a
write that is not beat-aligned (log entry 10, DEDUCED). -/
def State.headerWrite (sd : Side) (r : Request) (aligned : Bool) (slotBase slot : Nat) (s : State) : State :=
  let s := s.faultInLine sd
  match (if aligned then writtenBytes r slotBase 16 else none) with
  | some bs => s.takeHeader sd slot (Header.ofBytes bs)
  | none => (s.raise .lineFault).setParser sd .skipping

/-- R13: an image write to another slot than the line in progress's faults it. -/
def State.faultStraySlot (sd : Side) (slot : Nat) (s : State) : State :=
  match s.parsers.get sd with
  | .inLine ln => if ln.slot ≠ slot then s.faultLine sd ln else s
  | _ => s

/-- R2, R5, R13: an image write of a side whose ring begins at `base`. -/
def State.takeImageWrite (sd : Side) (base : Nat) (r : Request) (s : State) : State :=
  let slot := (reqLo r - base) / 4096
  let slotBase := base + 4096 * slot
  let offset := reqLo r - slotBase
  let aligned := decide (offset % 8 = 0)
  let first := offset / 8 * 8
  let beats := beatOffsets r first aligned
  if first = 0 then
    ((beats.drop 2).foldl (State.takeBeat sd r aligned slotBase) (s.headerWrite sd r aligned slotBase slot))
  else
    (beats.foldl (State.takeBeat sd r aligned slotBase) (s.faultStraySlot sd slot))

/-- R1: the head id, the mode and the ring of an image write of a side. -/
def isImageWrite (mode : Mode) (head : Option Nat) (ring : Ring) (r : Request) : Bool :=
  decide (mode ≠ .standby) && decide (r.kind = .write) && decide (head = some r.source.toNat) &&
    reqInside r ring.base (ring.count * 4096) && !reqCrosses r

end Sys2Proof.Machine
end

