-- ==== Sys2Proof/Machine/Cancel.lean ====
section
/-! DEFINITION. Cancel control (chapter 6): its directives and the print status words. -/

namespace Sys2Proof.Machine

/-- R108: CSUSP. -/
def State.suspend (s : State) : State := { s with cancel := { s.cancel with suspended := true } }

/-- R109: CRES. -/
def State.resume (s : State) : State := { s with cancel := { s.cancel with suspended := false } }

/-- R110: CREL. -/
def State.releaseHold (s : State) : State := { s with cancel := { s.cancel with held := false, misprints := 0 } }

/-- R119, R122: an event that sets HELD sets CANCEL_HELD. -/
def State.hold (s : State) : State :=
  ({ s with cancel := { s.cancel with held := true } } : State).raise .cancelHeld

/-- R119: HEAD_FAULT and INK_OUT hold cancelling. -/
def PrintStatus.holds : PrintStatus → Bool
  | .headFault => true
  | .inkOut => true
  | _ => false

/-- R120: the remark a recorded status adds. -/
def PrintStatus.remark? : PrintStatus → Option Remark
  | .ok => none
  | .misprint => some .misprint
  | .headFault => some .headFault
  | .inkOut => some .inkOut

/-- R120: a status recorded in an entry. -/
def Entry.recordStatus (st : PrintStatus) (e : Entry) : Entry :=
  let e := { e with printStatus := some st }
  match st.remark? with
  | some k => e.addRemark k
  | none => e

/-- R121: the misprint count after a MISPRINT. -/
def misprintAfter (n : Nat) : Nat := if n < 2 then n + 1 else 2

/-- R121: the count after a recorded status, and the hold of a second consecutive misprint. -/
def State.countMisprint (st : PrintStatus) (s : State) : State :=
  match st with
  | .ok => { s with cancel := { s.cancel with misprints := 0 } }
  | .misprint =>
    let n := misprintAfter s.cancel.misprints
    let s := { s with cancel := { s.cancel with misprints := n } }
    if n = 2 then s.hold else s
  | _ => s

/-- R120: the entry can take a status: a PRINT answer and no status yet. -/
def Entry.awaitsStatus (e : Entry) : Bool :=
  (match e.print with
    | some { piece := _, action := .print _ _ _ } => true
    | _ => false) && e.printStatus.isNone

/-- R119, R120: a status word that passed R118. -/
def State.takeStatus (piece : Nat) (st : PrintStatus) (s : State) : State :=
  let s := if st.holds then s.hold else s
  match s.entry? piece with
  | none => s.raise .strayWrite
  | some e =>
    if e.awaitsStatus then (s.modifyEntry piece (Entry.recordStatus st)).countMisprint st
    else s.raise .strayWrite

/-- R118, R187: one status word event: slot j of the window at `base`. -/
def State.statusWord (printer : Option Nat) (r : Request) (base : Nat) (s : State) (j : Nat) : State :=
  if printer ≠ some r.source.toNat then s.raise .strayWrite
  else
    match writtenBytes r (base + 8 * j) 8 with
    | none => s.raise .strayWrite
    | some bs =>
      let piece := half bs 0
      if piece % 64 ≠ j then s.raise .strayWrite
      else
        match PrintStatus.ofCode (byteAt bs 2).toNat with
        | none => s.raise .strayWrite
        | some st => s.takeStatus piece st

/-- R118: a write's part in the print status window, taken slot by slot in RUN and DRAIN. -/
def State.takeStatusWrite (printer : Option Nat) (base : Nat) (r : Request) (s : State) : State :=
  if s.mode = .standby then s
  else (slotsTouched r base 8 64).foldl (State.statusWord printer r base) s

end Sys2Proof.Machine
end

