-- ==== Sys2Proof/Machine/Lanes.lean ====
section
/-! DEFINITION. The lanes of the path unit (section 9.3): their states, credits and messages. -/

namespace Sys2Proof.Machine

/-- One lane of the state. -/
def State.lane (s : State) (l : Lane) : LaneUnit := s.path.lanes.get l

/-- One lane replaced. -/
def State.setLane (l : Lane) (u : LaneUnit) (s : State) : State :=
  { s with path := { s.path with lanes := s.path.lanes.set l u } }

/-- Something sent on the D-port. -/
def State.sendDown (d : DownSend) (s : State) : State :=
  { s with path := { s.path with downLog := s.path.downLog ++ [d] } }

/-- Section 9.3: the top of a credit count. -/
def creditMax : Nat := 63

/-- R172, R189: a DOWN lane becomes OPENING and OPEN is sent. -/
def State.openLane (l : Lane) (s : State) : State :=
  (s.setLane l { s.lane l with state := .opening, credits := 0 }).sendDown (.message (linkMessage messageOpen l 0))

/-- R175: CLOSE is sent and the lane becomes DOWN with no credit. -/
def State.closeLane (l : Lane) (s : State) : State :=
  (s.setLane l { s.lane l with state := .down, credits := 0 }).sendDown (.message (linkMessage messageClose l 0))

/-- R175, R180: a CLOSING lane with nothing outstanding goes DOWN. -/
def State.closeLaneIfDue (l : Lane) (s : State) : State :=
  if (s.lane l).state = .closing ∧ (s.lane l).outstanding = 0 then s.closeLane l else s

/-- R172: LOPEN of a lane. -/
def State.openLaneDirective (l : Lane) (s : State) : State :=
  if (s.lane l).state = .down then s.openLane l else s.refuse .wrongMode

/-- R175: LCLOSE of a lane. -/
def State.closeLaneDirective (l : Lane) (s : State) : State :=
  if (s.lane l).state = .up then
    (s.setLane l { s.lane l with state := .closing }).closeLaneIfDue l
  else s.refuse .wrongMode

/-- R173: a GRANT of n. -/
def State.takeGrant (l : Lane) (n : Nat) (s : State) : State :=
  if (s.lane l).state = .opening then
    if n = 0 then (s.setLane l { s.lane l with state := .down, credits := 0 }).raise .laneDrop
    else s.setLane l { s.lane l with state := .up, credits := n }
  else s

/-- R174: a CREDIT of k. -/
def State.takeCredit (l : Lane) (k : Nat) (s : State) : State :=
  match (s.lane l).state with
  | .up => s.setLane l { s.lane l with credits := min creditMax ((s.lane l).credits + k) }
  | .closing => s.setLane l { s.lane l with credits := min creditMax ((s.lane l).credits + k) }
  | _ => s

/-- R176: a DROP. -/
def State.takeDrop (l : Lane) (s : State) : State :=
  (s.setLane l { s.lane l with state := .down, credits := 0 }).raise .laneDrop

/-- R162, R186: the lane an operand byte names, if it names one. -/
def laneOfOperand (operand : BitVec 8) : Option Lane :=
  if operand.toNat < 4 then some (Lane.ofCode operand.toNat) else none

end Sys2Proof.Machine
end

