-- ==== Sys2Proof/Machine/Records.lean ====
section
/-! DEFINITION. The setup records (section 8.2): for each kind, the clamps, the range checks and the settings a record in
range gives. Machine/Setup.lean takes them. -/

namespace Sys2Proof.Machine

/-- A number held down to a maximum: the clamps of R153 to R160. -/
def clampTo (top n : Nat) : Nat := min n top

/-- R152, R186: the U-port lane a LANE_MAP byte names; RPT and above name none. -/
def UpLane.ofByte (b : BitVec 8) : Option UpLane :=
  if b = 0 then some .img else if b = 1 then some .ctl else if b = 2 then some .blk else none

/-- Section 10.2: the side a code byte names. -/
def sideOfByte (b : BitVec 8) : Option Side := if b = 0 then some .face else if b = 1 then some .back else none

/-- Section 10.2: the class a code byte names. -/
def clsOfByte (b : BitVec 8) : Option Cls :=
  if b = 0 then some .ph else if b = 1 then some .col else if b = 2 then some .fl else none

/-- Section 10.2: the channel a code byte names. -/
def channelOfByte (b : BitVec 8) : Option Channel :=
  if b = 0 then some .v else if b = 1 then some .r else if b = 2 then some .l else none

/-- Section 10.2: the comparison mode a code byte names. -/
def modeOfByte (b : BitVec 8) : Option CompareMode :=
  if b = 0 then some .above else if b = 1 then some .below
  else if b = 2 then some .inside else if b = 3 then some .outside else none

/-- R156: the ranks are a permutation of 1, 2 and 3. -/
def ranksPermute (r : PerClass Nat) : Bool :=
  decide (1 ≤ r.ph ∧ r.ph ≤ 3) && decide (1 ≤ r.col ∧ r.col ≤ 3) && decide (1 ≤ r.fl ∧ r.fl ≤ 3) &&
    decide (r.ph ≠ r.col) && decide (r.ph ≠ r.fl) && decide (r.col ≠ r.fl)

/-- R156: the checks made after the clamps. -/
def DecisionSettings.inRange (d : DecisionSettings) : Bool :=
  ranksPermute d.ranks && decide (d.xMin ≤ d.xMax) && decide (d.yMin ≤ d.yMax)

/-- Section 10.2: the action a code byte names; 0 (NONE) names none. -/
def actionOfByte (b : BitVec 8) : Option Action :=
  if b = 1 then some .pass else if b = 2 then some .rotate else if b = 3 then some .flip
  else if b = 4 then some .flipRotate else if b = 5 then some .cull else none

/-- The nine extents of a memory map (R160): base, size in bytes and alignment of the base. -/
def MemoryMap.extents (m : MemoryMap) : List (Nat × Nat × Nat) :=
  [(m.rings.face.base, m.rings.face.count * 4096, 4096), (m.rings.back.base, m.rings.back.count * 4096, 4096),
   (m.dispatch, 512, 1024), (m.print, 1024, 1024), (m.status, 512, 1024), (m.exit, 512, 1024), (m.live, 256, 1024),
   (m.pieceRing.base, m.pieceRing.count * 32, 4096), (m.trayRing.base, m.trayRing.count * 128, 4096)]

end Sys2Proof.Machine

namespace Sys2Proof

open Sys2Proof.Machine

/-- R152: the lane map of a record in range. -/
def LaneMapRecord.map (m : LaneMapRecord) : Vector UpLane 7 :=
  m.lanes.map fun b => (UpLane.ofByte b).getD .blk

/-- R152: every byte names IMG, CTL or BLK. -/
def LaneMapRecord.inRange (m : LaneMapRecord) : Bool := m.lanes.toList.all fun b => (UpLane.ofByte b).isSome

/-- R153: one channel's values after the clamps. -/
def ChannelRecord.clamped (c : ChannelRecord) : ChannelCorrection :=
  { black := clampTo 255 c.black.toNat, gain := clampTo 1023 c.gain.toNat }

/-- R153: the correction of a record. -/
def CorrectionRecord.correction (m : CorrectionRecord) : Correction :=
  { v := m.v.clamped, r := m.r.clamped, l := m.l.clamped }

/-- R154: a comparison with its limits clamped, if its channel and mode are named and lo ≤ hi holds where it must. -/
def ComparisonRecord.comparison (m : ComparisonRecord) : Option Comparison :=
  match channelOfByte m.channel, modeOfByte m.mode with
  | some ch, some md =>
    let lo := clampTo 1023 m.lo.toNat
    let hi := clampTo 1023 m.hi.toNat
    if (md = .inside ∨ md = .outside) ∧ hi < lo then none
    else some { channel := ch, mode := md, lo := lo, hi := hi }
  | _, _ => none

/-- R154: the secondary comparison: absent, or present and in range. The outer `none` is a range failure. -/
def ClassTestRecord.secondaryTest (m : ClassTestRecord) : Option (Option Comparison) :=
  if m.secondaryPresent then m.secondary.comparison.map some else some none

/-- R154: E after its clamp. -/
def ClassTestRecord.early (m : ClassTestRecord) : Nat := clampTo 40800 m.earlyHits.toNat

/-- R154: the ranges of m, L, M, w and E. -/
def ClassTestRecord.numbersInRange (m : ClassTestRecord) : Bool :=
  decide (m.runFloor ≠ 0) && decide (1 ≤ m.minLines.toNat) && decide (m.minLines.toNat ≤ 160) &&
    decide (1 ≤ m.minHits.toNat) && decide (m.minHits.toNat ≤ 40800) && decide (m.weight ≠ 0) &&
    (decide (m.early = 0) || decide (m.minHits.toNat ≤ m.early))

/-- R154: the class and test of a record in range. -/
def ClassTestRecord.test (m : ClassTestRecord) : Option (Cls × ClassTest) :=
  match clsOfByte m.cls, m.primary.comparison, m.secondaryTest with
  | some k, some p, some q =>
    if m.numbersInRange then
      some (k,
        { primary := p, secondary := q
          runFloor := m.runFloor.toNat, minLines := m.minLines.toNat, minHits := m.minHits.toNat
          weight := m.weight.toNat, earlyHits := m.early })
    else none
  | _, _, _ => none

/-- R155: the ranges of a GEOMETRY record. -/
def GeometryRecord.inRange (m : GeometryRecord) : Bool :=
  decide (16 ≤ m.zw.toNat) && decide (m.zw.toNat ≤ 160) && decide (8 ≤ m.zh.toNat) && decide (m.zh.toNat ≤ 255) &&
    decide (256 ≤ m.lineLimit.toNat) && decide (m.lineLimit.toNat ≤ 1023) && decide (m.lineFaultLimit.toNat ≤ 15)

/-- R155: the settings of a GEOMETRY record. -/
def GeometryRecord.geometry (m : GeometryRecord) : Geometry :=
  { zw := m.zw.toNat, zh := m.zh.toNat, lineLimit := m.lineLimit.toNat, lineFaultLimit := m.lineFaultLimit.toNat }

/-- R156: the settings of a DECISION record after its clamps. -/
def DecisionRecord.settings (m : DecisionRecord) : DecisionSettings :=
  { ranks := { ph := m.rankPh.toNat, col := m.rankCol.toNat, fl := m.rankFl.toNat }
    margin := max 50 (clampTo 100 m.margin.toNat)
    xMin := clampTo 1023 m.xMin.toNat
    xMax := clampTo 1023 m.xMax.toNat
    yMin := clampTo 511 m.yMin.toNat
    yMax := clampTo 511 m.yMax.toNat
    tolerance := clampTo 63 m.tolerance.toNat }

/-- R158: the ranges of a TRAY_SET record. -/
def TraySetRecord.inRange (m : TraySetRecord) : Bool :=
  (m.actions.toList.all fun b => (actionOfByte b).isSome) &&
    (m.stackers.toList.all fun b => decide (b.toNat ≤ 15)) &&
    decide (m.diePh.toNat ≤ 3) && decide (m.dieCol.toNat ≤ 3) &&
    decide (2 ≤ m.ageLimit.toNat) && decide (m.ageLimit.toNat ≤ 11)

/-- R158: the tray set of a record in range. -/
def TraySetRecord.traySet (m : TraySetRecord) : TraySet :=
  { facing := m.actions.map fun b => (actionOfByte b).getD .cull
    stackers := m.stackers.map BitVec.toNat
    diePh := m.diePh.toNat
    dieCol := m.dieCol.toNat
    pieceLimit := m.pieceLimit.toNat
    ageLimit := m.ageLimit.toNat }

/-- R160: the map of a record after its count clamps. -/
def MemoryMapRecord.map (m : MemoryMapRecord) : MemoryMap :=
  { rings :=
      { face := { base := m.faceBase.toNat, count := clampTo 256 m.faceCount.toNat }
        back := { base := m.backBase.toNat, count := clampTo 256 m.backCount.toNat } }
    dispatch := m.dispatch.toNat
    print := m.print.toNat
    status := m.status.toNat
    exit := m.exit.toNat
    live := m.live.toNat
    pieceRing := { base := m.pieceBase.toNat, count := clampTo 4096 m.pieceCount.toNat }
    trayRing := { base := m.trayBase.toNat, count := clampTo 256 m.trayCount.toNat } }

/-- R161: the ranges of a SOURCE_TABLE record. -/
def SourceTableRecord.inRange (m : SourceTableRecord) : Bool :=
  decide (m.faceHead.toNat ≤ 14) && decide (m.backHead.toNat ≤ 14) && decide (m.gate.toNat ≤ 14) &&
    decide (m.printer.toNat ≤ 14) && decide (m.faceHead ≠ m.backHead) && decide (m.hosts.setWidth 15 ≠ 0#15)

/-- R161: the source table of a record; bit 15 of the host source set is ignored. -/
def SourceTableRecord.table (m : SourceTableRecord) : SourceTable :=
  { heads := { face := m.faceHead.toNat, back := m.backHead.toNat }
    gate := m.gate.toNat
    printer := m.printer.toNat
    hosts := m.hosts.setWidth 15 }

end Sys2Proof
end

