-- ==== Sys2Proof/Machine/Setup.lean ====
section
/-! DEFINITION. The setup capture unit (chapter 8): the checks and the taking of each record kind, the directives, slot
shadows and captures. -/

namespace Sys2Proof.Machine

/-! ## LANE_MAP (R152) -/

/-- R152: the taking of a LANE_MAP. -/
def State.takeLaneMap (m : LaneMapRecord) (s : State) : State :=
  if m.inRange then { s with setup := { s.setup with laneMap := m.map } } else s.refuse .range

/-! ## ALARM (R166) -/

/-- R166: an ALARM replaces the whole mask; marks beyond the 14 flags are not read. -/
def State.takeAlarm (mask : BitVec 16) (s : State) : State :=
  { s with setup := { s.setup with alarmMask := mask.setWidth 14 } }

/-! ## Piece-boundary records (R153 to R157) -/

/-- R157: the staged inspection set is changed and marked dirty; in STANDBY it is applied at once (R78). -/
def State.stage (f : Settings → Settings) (s : State) : State :=
  let t := { s with gens := { s.gens with staged := f s.gens.staged, dirty := true } }
  if s.mode = .standby then t.applyStaged else t

/-- R153: the taking of a CORRECTION. -/
def State.takeCorrection (m : CorrectionRecord) (s : State) : State :=
  match sideOfByte m.side with
  | some sd => s.stage fun st => { st with correction := st.correction.set sd m.correction }
  | none => s.refuse .range

/-- R154: the taking of a CLASS_TEST. -/
def State.takeClassTest (m : ClassTestRecord) (s : State) : State :=
  match m.test with
  | some q => s.stage fun st => { st with tests := st.tests.set q.1 q.2 }
  | none => s.refuse .range

/-- R155: the taking of a GEOMETRY. -/
def State.takeGeometry (m : GeometryRecord) (s : State) : State :=
  if m.inRange then s.stage fun st => { st with geometry := m.geometry } else s.refuse .range

/-- R156: the taking of a DECISION. -/
def State.takeDecision (m : DecisionRecord) (s : State) : State :=
  if m.settings.inRange then s.stage fun st => { st with decision := m.settings } else s.refuse .range

/-! ## TRAY_SET (R158) -/

/-- R135, R158: a TRAY_SET replaces the staged tray set; in STANDBY it is applied at once and leaves the staged set
clean. -/
def State.takeTraySet (m : TraySetRecord) (s : State) : State :=
  if m.inRange then
    if s.mode = .standby then
      { s with trays := { inForce := m.traySet, staged := m.traySet, dirty := false } }
    else { s with trays := { s.trays with staged := m.traySet, dirty := true } }
  else s.refuse .range

/-! ## Once-only records (R159 to R161) -/

/-- R160: the RANGE checks: the least counts, and no extent past address FFFFFFFFh. -/
def MemoryMap.inRange (m : MemoryMap) : Bool :=
  decide (8 ≤ m.rings.face.count) && decide (8 ≤ m.rings.back.count) && decide (16 ≤ m.pieceRing.count) &&
    decide (4 ≤ m.trayRing.count) && m.extents.all fun x => decide (x.1 + x.2.1 ≤ 4294967296)

/-- Two spans share a byte. -/
def spansMeet (a b : Nat × Nat) : Bool := decide (a.1 < b.1 + b.2) && decide (b.1 < a.1 + a.2)

/-- No two spans of a list share a byte. -/
def spansApart : List (Nat × Nat) → Bool
  | [] => true
  | a :: rest => (rest.all fun b => !spansMeet a b) && spansApart rest

/-- R148: the setup area's base from the straps. -/
def setupBase (straps : BitVec 16) : Nat := straps.toNat * 65536

/-- R148: the setup area is 1 KiB. -/
def setupSize : Nat := 1024

/-- R160: the OVERLAP checks: alignment, and no byte shared among the extents and the setup area. -/
def MemoryMap.placed (straps : BitVec 16) (m : MemoryMap) : Bool :=
  (m.extents.all fun x => decide (x.1 % x.2.2 = 0)) &&
    spansApart ((setupBase straps, setupSize) :: m.extents.map fun x => (x.1, x.2.1))

/-- R151, R159, R160: the checks and the taking of a MEMORY_MAP. -/
def State.takeMemoryMap (m : MemoryMapRecord) (s : State) : State :=
  if s.mode ≠ .standby then s.refuse .wrongMode
  else if s.setup.map.isSome then s.refuse .once
  else if m.map.inRange = false then s.refuse .range
  else if m.map.placed s.setup.straps = false then s.refuse .overlap
  else { s with setup := { s.setup with map := some m.map } }

/-- R151, R159, R161: the checks and the taking of a SOURCE_TABLE. -/
def State.takeSourceTable (m : SourceTableRecord) (s : State) : State :=
  if s.mode ≠ .standby then s.refuse .wrongMode
  else if s.setup.sources.isSome then s.refuse .once
  else if m.inRange = false then s.refuse .range
  else { s with setup := { s.setup with sources := some m.table } }

/-! ## Directives (R162 to R164, R131) -/

/-- R164: CLRS clears all 14 flags and both refusal reasons. -/
def State.clearStatus (s : State) : State := { s with status := StatusUnit.clear }

/-- R147, R182: the link of an injected write issued before a RESTART is cleared. -/
def Issued.unlink (i : Issued) : Issued :=
  match i.link with
  | .injected _ => { i with link := .injected false }
  | .forwarded => i

/-- R163, R147: what RESTART sets in STANDBY. -/
def State.restarted (s : State) : State :=
  { s with
    status := StatusUnit.clear
    gens := Generations.reset
    trays := TraySets.reset
    lastUninspected := none
    cancel := Cancel.reset
    tally := TallyUnit.reset
    report := Report.reset
    path := { s.path with issued := s.path.issued.map Issued.unlink } }

/-- R162, R163: the RESTART directive. -/
def State.directRestart (s : State) : State :=
  if s.mode = .standby then s.restarted else s.refuse .wrongMode

/-- R162: LOPEN with its operand byte. -/
def State.directLopen (operand : BitVec 8) (s : State) : State :=
  match laneOfOperand operand with
  | some l => s.openLaneDirective l
  | none => s.refuse .range

/-- R162: LCLOSE with its operand byte. -/
def State.directLclose (operand : BitVec 8) (s : State) : State :=
  match laneOfOperand operand with
  | some l => s.closeLaneDirective l
  | none => s.refuse .range

/-- R162, section 10.4: a DIRECTIVE record: code and operand. -/
def State.takeDirective (code operand : BitVec 8) (s : State) : State :=
  match code.toNat with
  | 1 => s.directRun
  | 2 => s.directDrain
  | 3 => s.directStby
  | 4 => s.clearStatus
  | 5 => s.requestClose .tclose
  | 6 => s.suspend
  | 7 => s.resume
  | 8 => s.releaseHold
  | 9 => s.directLopen operand
  | 10 => s.directLclose operand
  | 11 => s.directRestart
  | _ => s.refuse .range

/-! ## Slot shadows and captures (R148 to R151) -/

/-- The bytes `i` and `i + 1` of a slot as a 16-bit field (R184). -/
def slotHalf (bs : List Byte) (i : Nat) : BitVec 16 := byteAt bs (i + 1) ++ byteAt bs i

/-- The bytes `i` to `i + 3` of a slot as a 32-bit field (R184). -/
def slotWord (bs : List Byte) (i : Nat) : BitVec 32 := slotHalf bs (i + 2) ++ slotHalf bs i

/-- Section 10.4: the MEMORY_MAP body. -/
def memoryMapOfSlot (bs : List Byte) : MemoryMapRecord :=
  { faceBase := slotWord bs 0, faceCount := slotHalf bs 4, backBase := slotWord bs 8, backCount := slotHalf bs 12
    dispatch := slotWord bs 16, print := slotWord bs 20, status := slotWord bs 24, exit := slotWord bs 28
    live := slotWord bs 32, pieceBase := slotWord bs 36, pieceCount := slotHalf bs 40
    trayBase := slotWord bs 44, trayCount := slotHalf bs 48 }

/-- Section 10.4: the SOURCE_TABLE body. -/
def sourceTableOfSlot (bs : List Byte) : SourceTableRecord :=
  { faceHead := byteAt bs 0, backHead := byteAt bs 1, gate := byteAt bs 2, printer := byteAt bs 3
    hosts := slotHalf bs 4 }

/-- Section 10.4: the LANE_MAP body. -/
def laneMapOfSlot (bs : List Byte) : LaneMapRecord :=
  { lanes := #v[byteAt bs 1, byteAt bs 2, byteAt bs 3, byteAt bs 4, byteAt bs 5, byteAt bs 6, byteAt bs 7] }

/-- Section 10.4: black and gain of a channel. -/
def channelOfSlot (bs : List Byte) (i : Nat) : ChannelRecord :=
  { black := slotHalf bs i, gain := slotHalf bs (i + 2) }

/-- Section 10.4: the CORRECTION body. -/
def correctionOfSlot (bs : List Byte) : CorrectionRecord :=
  { side := byteAt bs 0, v := channelOfSlot bs 2, r := channelOfSlot bs 6, l := channelOfSlot bs 10 }

/-- Section 10.4: the CLASS_TEST body. -/
def classTestOfSlot (bs : List Byte) : ClassTestRecord :=
  { cls := byteAt bs 0
    primary := { channel := byteAt bs 1, mode := byteAt bs 2, lo := slotHalf bs 4, hi := slotHalf bs 6 }
    secondaryPresent := (byteAt bs 3).getLsbD 0
    secondary := { channel := byteAt bs 8, mode := byteAt bs 9, lo := slotHalf bs 10, hi := slotHalf bs 12 }
    runFloor := byteAt bs 14, weight := byteAt bs 15, minLines := slotHalf bs 16, minHits := slotHalf bs 18
    earlyHits := slotHalf bs 20 }

/-- Section 10.4: the GEOMETRY body. -/
def geometryOfSlot (bs : List Byte) : GeometryRecord :=
  { zw := slotHalf bs 0, zh := slotHalf bs 2, lineLimit := slotHalf bs 4, lineFaultLimit := byteAt bs 6 }

/-- Section 10.4: the DECISION body. -/
def decisionOfSlot (bs : List Byte) : DecisionRecord :=
  { rankPh := byteAt bs 0, rankCol := byteAt bs 1, rankFl := byteAt bs 2, margin := byteAt bs 3
    tolerance := byteAt bs 4, xMin := slotHalf bs 6, xMax := slotHalf bs 8, yMin := slotHalf bs 10
    yMax := slotHalf bs 12 }

/-- Section 10.4: the TRAY_SET body. -/
def traySetOfSlot (bs : List Byte) : TraySetRecord :=
  { actions := #v[byteAt bs 0, byteAt bs 1, byteAt bs 2, byteAt bs 3, byteAt bs 4, byteAt bs 5, byteAt bs 6,
      byteAt bs 7]
    stackers := #v[byteAt bs 8, byteAt bs 9, byteAt bs 10, byteAt bs 11, byteAt bs 12, byteAt bs 13, byteAt bs 14,
      byteAt bs 15]
    diePh := byteAt bs 16, dieCol := byteAt bs 17, pieceLimit := slotHalf bs 18, ageLimit := byteAt bs 20 }

/-- R150, R151, R186: the capture of a slot's shadow: the kind byte decides the record, the body is checked and taken or
refused. -/
def State.takeRecord (bs : List Byte) (s : State) : State :=
  match (byteAt bs 56).toNat with
  | 1 => s.takeMemoryMap (memoryMapOfSlot bs)
  | 2 => s.takeSourceTable (sourceTableOfSlot bs)
  | 3 => s.takeLaneMap (laneMapOfSlot bs)
  | 4 => s.takeDirective (byteAt bs 0) (byteAt bs 1)
  | 5 => s.takeAlarm (slotHalf bs 0)
  | 6 => s.takeCorrection (correctionOfSlot bs)
  | 7 => s.takeClassTest (classTestOfSlot bs)
  | 8 => s.takeGeometry (geometryOfSlot bs)
  | 9 => s.takeDecision (decisionOfSlot bs)
  | 10 => s.takeTraySet (traySetOfSlot bs)
  | _ => s.refuse .badKind

/-- R149: the source is a host source: every one until the source table is captured. -/
def isHost (sources : Option SourceTable) (r : Request) : Bool :=
  match sources with
  | none => true
  | some t => t.hosts.getLsbD r.source.toNat

/-- R149: a shadow after a host write: enabled bytes are copied, the others keep their shadow value. -/
def shadowAfter (r : Request) (slotBase : Nat) (old : Shadow) : Shadow :=
  Vector.ofFn fun i => (writtenAt r (slotBase + i.val)).getD old[i]

/-- R150: a host write covers all eight tail bytes of a slot. -/
def coversTail (r : Request) (slotBase : Nat) : Bool := (writtenBytes r (slotBase + 56) 8).isSome

/-- R150: a slot's record kind is LANE_MAP. -/
def isLaneMapSlot (bs : List Byte) : Bool := decide ((byteAt bs 56).toNat = 3)

/-- R150, R170: the capture of a slot of an arriving write. `settle` is what held requests do at the capture of a LANE_MAP,
before the next slot is taken (log entry 6, DEDUCED). -/
def State.capture (settle : State → State) (bs : List Byte) (s : State) : State :=
  if isLaneMapSlot bs then settle (s.takeRecord bs) else s.takeRecord bs

/-- R149, R150: one slot of a host write: shadow update, then capture. -/
def State.takeSetupSlot (settle : State → State) (r : Request) (s : State) (k : Nat) : State :=
  let slotBase := setupBase s.setup.straps + 64 * k
  let shadow := shadowAfter r slotBase (s.setup.shadows[k]?.getD (Vector.replicate 64 0))
  let s := { s with setup := { s.setup with shadows := s.setup.shadows.setIfInBounds k shadow } }
  if coversTail r slotBase then s.capture settle shadow.toList else s

/-- R148, R149: a write's part in the setup area; `host` is the source test made at the arrival. -/
def State.takeSetupWrite (settle : State → State) (host : Bool) (r : Request) (s : State) : State :=
  if host then
    (slotsTouched r (setupBase s.setup.straps) 64 16).foldl (State.takeSetupSlot settle r) s
  else s.raise .setupForeign

end Sys2Proof.Machine
end

