-- ==== Sys2Proof/Machine/Path.lean ====
section
/-! DEFINITION. The path unit (chapter 9): presentation, holding and arrival of requests, the arbiter and issue, responses
and substitution, injected writes. -/

namespace Sys2Proof.Machine

/-! ## Lane queues (R169, R170) -/

/-- R170: the capacity of a U-port lane's queue. -/
def UpLane.capacity : UpLane → Nat
  | .img => 16
  | .ctl => 8
  | .blk => 8

/-- The queue of a U-port lane. -/
def LaneQueues.get (q : LaneQueues) : UpLane → List Queued
  | .img => q.img
  | .ctl => q.ctl
  | .blk => q.blk

/-- A U-port lane's queue replaced. -/
def LaneQueues.set (q : LaneQueues) (l : UpLane) (v : List Queued) : LaneQueues :=
  match l with
  | .img => { q with img := v }
  | .ctl => { q with ctl := v }
  | .blk => { q with blk := v }

/-- R169: the lane of a request by the lane map in force; class tag 0 always gives BLK. -/
def State.laneOf (s : State) (r : Request) : UpLane :=
  if r.classTag = 0 then .blk else s.setup.laneMap[r.classTag.toNat - 1]?.getD .blk

/-- R170: a lane's queue has room. -/
def State.hasRoom (s : State) (l : UpLane) : Bool := decide ((s.path.queues.get l).length < l.capacity)

/-- A U-port lane's queue replaced in the state. -/
def State.setQueue (l : UpLane) (v : List Queued) (s : State) : State :=
  { s with path := { s.path with queues := s.path.queues.set l v } }

/-- R171: a request placed at the young end of a lane's queue. -/
def State.enqueue (l : UpLane) (q : Queued) (s : State) : State :=
  s.setQueue l (s.path.queues.get l ++ [q])

/-! ## Arrival (R171) -/

/-- The parts a request may fall into, by the block that takes them. -/
inductive Part
  | setup
  | image (sd : Side)
  | exit
  | status
  | dispatch
  | print
  | live
  deriving DecidableEq, Repr

/-- A part put in its place by its base address. -/
def insertPart (p : Nat × Part) : List (Nat × Part) → List (Nat × Part)
  | [] => [p]
  | q :: qs => if p.1 ≤ q.1 then p :: q :: qs else q :: insertPart p qs

/-- R171: the parts in ascending address order (the windows share no byte, so their bases order them). -/
def orderParts : List (Nat × Part) → List (Nat × Part)
  | [] => []
  | p :: ps => insertPart p (orderParts ps)

/-- A part present when a condition holds. -/
def partIf (b : Bool) (base : Nat) (p : Part) : List (Nat × Part) := if b then [(base, p)] else []

/-- The head id of a side, once the source table is captured. -/
def headId (sources : Option SourceTable) (sd : Side) : Option Nat := sources.map fun t => t.heads.get sd

/-- The gate id, once the source table is captured. -/
def gateId (sources : Option SourceTable) : Option Nat := sources.map SourceTable.gate

/-- The printer id, once the source table is captured. -/
def printerId (sources : Option SourceTable) : Option Nat := sources.map SourceTable.printer

/-- The parts of a request in the windows that the memory map and the straps place at its arrival (R148, R160). An image
ring has a part of a write that lies inside it whole (R1). -/
def partsOf (setup : SetupUnit) (r : Request) : List (Nat × Part) :=
  if reqOutside r then []
  else
    match r.kind with
    | .write =>
      let area := setupBase setup.straps
      partIf (reqTouches r area setupSize) area .setup ++
        (match setup.map with
          | none => []
          | some m =>
            partIf (reqInside r m.rings.face.base (m.rings.face.count * 4096)) m.rings.face.base (.image .face) ++
            partIf (reqInside r m.rings.back.base (m.rings.back.count * 4096)) m.rings.back.base (.image .back) ++
            partIf (reqTouches r m.exit 512) m.exit .exit ++
            partIf (reqTouches r m.status 512) m.status .status)
    | .read =>
      match setup.map with
      | none => []
      | some m =>
        partIf (reqTouches r m.dispatch 512) m.dispatch .dispatch ++
        partIf (reqTouches r m.print 1024) m.print .print ++
        partIf (reqTouches r m.live 256) m.live .live

/-- R1: a write inside a side's ring goes to the parser when the mode and the source are as R1 asks. -/
def State.offerImage (sources : Option SourceTable) (sd : Side) (base : Nat) (r : Request) (s : State) : State :=
  if s.mode ≠ .standby ∧ headId sources sd = some r.source.toNat then s.takeImageWrite sd base r else s

/-- R171: one part handed to its block. `sources` is the source table at the request's arrival (R161); the mode is read
as the part is taken (log entry 7, DEDUCED). -/
def State.takePart (settle : State → State) (sources : Option SourceTable) (r : Request) (acc : State × FillPlan)
    (p : Nat × Part) : State × FillPlan :=
  match p.2 with
  | .setup => (acc.1.takeSetupWrite settle (isHost sources r) r, acc.2)
  | .image sd => (acc.1.offerImage sources sd p.1 r, acc.2)
  | .exit => (acc.1.takeExitWrite (gateId sources) p.1 r, acc.2)
  | .status => (acc.1.takeStatusWrite (printerId sources) p.1 r, acc.2)
  | .dispatch => State.takeDispatchRead (gateId sources) p.1 r acc
  | .print => State.takePrintRead (printerId sources) p.1 r acc
  | .live => State.takeLiveRead p.1 r acc

/-- R171: the request offered to the blocks that watch arrivals, part by part in ascending address order. -/
def State.offer (settle : State → State) (r : Request) (s : State) : State × FillPlan :=
  (orderParts (partsOf s.setup r)).foldl (State.takePart settle s.setup.sources r) (s, [])

/-- R171: the arrival of an accepted request in a lane: queued, offered, and a READ completed with its fill-in plan. A
LANE_MAP that a WRITE captures lets held requests arrive by `settle` (R170). -/
def State.arrive (settle : State → State) (l : UpLane) (r : Request) (s : State) : State :=
  match r.kind with
  | .write => ((s.enqueue l { request := r, plan := [] }).offer settle r).1
  | .read =>
    let q := s.offer settle r
    q.1.enqueue l { request := r, plan := q.2 }

/-! ## Holding (R170; log entry 6, DESIGN CHOICE) -/

/-- The first request of a list that passes a test, and the list without it. -/
def takeFirst (p : Request → Bool) : List Request → Option (Request × List Request)
  | [] => none
  | r :: rs =>
    if p r then some (r, rs)
    else
      match takeFirst p rs with
      | some q => some (q.1, r :: q.2)
      | none => none

/-- R170: a request admitted to the U-port from behind a held one of its class: it is now presented. -/
def State.presentBehind (c : BitVec 3) (s : State) : State :=
  match takeFirst (fun r => r.classTag = c) s.path.behind with
  | some q => { s with path := { s.path with held := s.path.held ++ [q.1], behind := q.2 } }
  | none => s

/-- R170: the first held request, in the order they were presented, whose lane has room. -/
def State.nextAdmitted (s : State) : Option (Request × List Request) :=
  takeFirst (fun r => s.hasRoom (s.laneOf r)) s.path.held

/-- R170: held requests whose lanes have room arrive, in the order they were presented, those that a LANE_MAP of one of
them moves arriving at its capture. Room is judged anew before each: where one event gives room to several and the arrival
of the first captures a LANE_MAP that moves the second back to a full lane, the second stays held. R169 and R170 leave that
open (log entry 6; DESIGN CHOICE, unsafe). `fuel` bounds their number. -/
def State.admitHeld : Nat → State → State
  | 0, s => s
  | fuel + 1, s =>
    match s.nextAdmitted with
    | none => s
    | some q =>
      let t := ({ s with path := { s.path with held := q.2 } } : State).presentBehind q.1.classTag
      State.admitHeld fuel (t.arrive (State.admitHeld fuel) (t.laneOf q.1) q.1)

/-- R170: every held request that can arrive does. -/
def State.settleHeld (s : State) : State := s.admitHeld (s.path.held.length + s.path.behind.length)

/-- R168 to R170: a request presented at the U-port: kept behind a held request of its class, or accepted, or held. The
requests that a LANE_MAP among its captures moves arrive at that capture; none is left for the end where no held request
had room before (`State.HoldingLaw`). -/
def State.present (r : Request) (s : State) : State :=
  if s.path.held.any fun h => h.classTag == r.classTag then
    { s with path := { s.path with behind := s.path.behind ++ [r] } }
  else if s.hasRoom (s.laneOf r) then (s.arrive State.settleHeld (s.laneOf r) r).settleHeld
  else { s with path := { s.path with held := s.path.held ++ [r] } }

/-! ## Arbiter and issue (R177 to R179, R182) -/

/-- R179: the issued list holds up to 128 requests. -/
def issuedCapacity : Nat := 128

/-- R178: the top of the guard count. -/
def guardMax : Nat := 16

/-- A tag is carried by an injected write of the issued list. -/
def tagTaken (issued : List Issued) (t : Nat) : Bool :=
  issued.any fun i => match i.link with
    | .injected _ => decide (i.tag.toNat = t)
    | .forwarded => false

/-- R182: the lowest of the tags 0 to 7 that no other injected write of the issued list carries. -/
def freeTag (issued : List Issued) : Option Nat := (List.range 8).find? fun t => !tagTaken issued t

/-- R140: the queue has a WAITING entry. -/
def Report.hasWaiting (r : Report) : Bool := r.queue.any fun e => decide (e.state = .waiting)

/-- R177: a lane has a request to issue. -/
def State.hasRequest (s : State) : Lane → Bool
  | .img => !s.path.queues.img.isEmpty
  | .ctl => !s.path.queues.ctl.isEmpty
  | .blk => !s.path.queues.blk.isEmpty
  | .rpt => s.report.hasWaiting && (freeTag s.path.issued).isSome

/-- R177: a lane is eligible. -/
def State.eligible (s : State) (l : Lane) : Bool :=
  decide ((s.lane l).state = .up) && decide (1 ≤ (s.lane l).credits) && s.hasRequest l &&
    decide (s.path.issued.length < issuedCapacity)

/-- R177, R178: the lane that gets the next grant: BLK by its guard, else the first eligible of IMG, CTL, RPT, BLK. -/
def State.granted (s : State) : Option Lane :=
  if s.path.guard = guardMax ∧ s.eligible .blk then some .blk
  else [Lane.img, Lane.ctl, Lane.rpt, Lane.blk].find? fun l => s.eligible l

/-- R178: the guard count after a grant to a lane. -/
def State.guardAfter (s : State) (l : Lane) : Nat :=
  if l = .blk then 0
  else if s.path.queues.blk = [] then s.path.guard
  else min guardMax (s.path.guard + 1)

/-- R179: an issue takes one credit and counts one more outstanding request of the lane; the guard count advances. -/
def State.charge (l : Lane) (s : State) : State :=
  let u := s.lane l
  let g := s.guardAfter l
  let s := s.setLane l { u with credits := u.credits - 1, outstanding := u.outstanding + 1 }
  { s with path := { s.path with guard := g } }

/-- R179: a request sent on the D-port joins the issued list. -/
def State.send (r : Request) (i : Issued) (s : State) : State :=
  let s := s.sendDown (.request r)
  { s with path := { s.path with issued := s.path.issued ++ [i] } }

/-- R179: the oldest request of a U-port lane is sent unchanged. -/
def State.issueForward (l : UpLane) (s : State) : State :=
  match s.path.queues.get l with
  | [] => s
  | q :: rest =>
    ((s.charge l.toLane).setQueue l rest).send q.request
      { lane := l.toLane, source := q.request.source, tag := q.request.tag, kind := q.request.kind
        plan := q.plan, link := .forwarded }

/-- R140: the bytes of a record: 32 of a piece record, 128 of a tray record. -/
def Record.bytes : Record → List Byte
  | .piece p => PieceRecord.bytes p
  | .tray t => TrayRecord.bytes t

/-- R140: the length of a record's write, in beats. -/
def Record.beats : Record → Nat
  | .piece _ => 4
  | .tray _ => 16

/-- R140: the address of a record's write by a memory map. -/
def Record.addressIn (m : MemoryMap) : Record → Word32
  | .piece p => BitVec.ofNat 32 (m.pieceRing.base + p.seq.toNat % m.pieceRing.count * 32)
  | .tray t => BitVec.ofNat 32 (m.trayRing.base + t.data.trayNumber.toNat % m.trayRing.count * 128)

/-- R140: the address of a record's write; a free value while no memory map is captured (log entry 1). -/
def State.recordAddress (s : State) (c : Record) : Word32 :=
  match s.setup.map with
  | some m => c.addressIn m
  | none => Config.recordAddressWithoutMap s.freeCount

/-- The counter of the free value advances when the free value was used. -/
def State.spendFree (s : State) : State :=
  match s.setup.map with
  | some _ => s
  | none => { s with freeCount := s.freeCount + 1 }

/-- R182: the injected write of a record: source id 15, class tag 0, every byte enabled. -/
def injectedWrite (addr : Word32) (tag : Nat) (c : Record) : Request :=
  { kind := .write, addr := addr, beats := c.beats, source := 15, classTag := 0, tag := BitVec.ofNat 8 tag
    payload := c.bytes.map fun b => (true, b) }

/-- R140: the oldest WAITING entry becomes ISSUED with a tag; its record and the queue that results. -/
def issueOldest (tag : Nat) : List ReportEntry → Option (Record × List ReportEntry)
  | [] => none
  | e :: es =>
    match e.state with
    | .waiting => some (e.record, { e with state := .issued tag } :: es)
    | .issued _ =>
      match issueOldest tag es with
      | some q => some (q.1, e :: q.2)
      | none => none

/-- R140: at the issue of a tray record its bank goes from SEALED to WRITING. -/
def OtherBank.issued : OtherBank → OtherBank
  | .sealed c d => .writing c d
  | b => b

/-- R140: the bank follows the issue of a record. -/
def TallyUnit.recordIssued (c : Record) (t : TallyUnit) : TallyUnit :=
  match c with
  | .tray _ => { t with other := t.other.issued }
  | .piece _ => t

/-- R179, R182: the oldest WAITING record is sent as an injected write. -/
def State.issueInjected (s : State) : State :=
  match freeTag s.path.issued with
  | none => s
  | some tag =>
    match issueOldest tag s.report.queue with
    | none => s
    | some q =>
      let r := injectedWrite (s.recordAddress q.1) tag q.1
      let t := { s with
        report := { s.report with queue := q.2 }
        tally := s.tally.recordIssued q.1 }
      ((t.spendFree).charge .rpt).send r
        { lane := .rpt, source := 15, tag := BitVec.ofNat 8 tag, kind := .write, plan := [], link := .injected true }

/-- R179: the issue of a granted lane; the place it frees admits a held request (R170). -/
def State.issueLane (l : Lane) (s : State) : State :=
  match l with
  | .img => (s.issueForward .img).settleHeld
  | .ctl => (s.issueForward .ctl).settleHeld
  | .blk => (s.issueForward .blk).settleHeld
  | .rpt => s.issueInjected

/-- R177 to R179: the arbiter's next issue, if a lane is eligible. -/
def State.issueNext (s : State) : State :=
  match s.granted with
  | some l => s.issueLane l
  | none => s

/-! ## Responses (R180, R181, R136, R141) -/

/-- R180: the oldest request of the issued list with a source id and tag, and the list without it. -/
def matchIssued (source : BitVec 4) (tag : BitVec 8) : List Issued → Option (Issued × List Issued)
  | [] => none
  | i :: is =>
    if i.source = source ∧ i.tag = tag then some (i, is)
    else
      match matchIssued source tag is with
      | some q => some (q.1, i :: q.2)
      | none => none

/-- R141: the report queue entry a tag is linked to, and the queue without it. -/
def takeIssuedRecord (tag : Nat) : List ReportEntry → Option (Record × List ReportEntry)
  | [] => none
  | e :: es =>
    if e.state = .issued tag then some (e.record, es)
    else
      match takeIssuedRecord tag es with
      | some q => some (q.1, e :: q.2)
      | none => none

/-- R136: the bank that is WRITING is zeroed and becomes FREE. -/
def OtherBank.released : OtherBank → OtherBank
  | .writing _ _ => .free
  | b => b

/-- R136: the response to a tray record frees its bank and executes a pending close. -/
def State.releaseBank (s : State) : State :=
  ({ s with tally := { s.tally with other := s.tally.other.released } } : State).settlePending

/-- R136, R139, R141: the response to a linked injected write. -/
def State.recordAnswered (tag : Nat) (status : Status) (s : State) : State :=
  match takeIssuedRecord tag s.report.queue with
  | none => s
  | some q =>
    let s := ({ s with report := { s.report with queue := q.2 } } : State).raiseIf (decide (status = .err))
      .reportFault
    let s := match q.1 with
      | .tray _ => s.releaseBank
      | .piece _ => s
    s.joinTrayRecord

/-- R180: something returned upstream. -/
def State.sendUp (u : UpReturn) (s : State) : State :=
  { s with path := { s.path with upLog := s.path.upLog ++ [u] } }

/-- R180: a matched request leaves the issued list and its lane's outstanding count. -/
def State.settleIssued (i : Issued) (rest : List Issued) (s : State) : State :=
  let s := { s with path := { s.path with issued := rest } }
  s.setLane i.lane { s.lane i.lane with outstanding := (s.lane i.lane).outstanding - 1 }

/-- R180, R181: what the response of a matched request does. -/
def State.deliver (i : Issued) (status : Status) (data : List Byte) (s : State) : State :=
  match i.link with
  | .injected true => s.recordAnswered i.tag.toNat status
  | .injected false => s
  | .forwarded =>
    match i.kind with
    | .read => s.sendUp { source := i.source, tag := i.tag, status := status, data := substitute i.plan data }
    | .write => s.sendUp { source := i.source, tag := i.tag, status := status, data := [] }

/-- R180, R175: a response from the memory controller. -/
def State.takeResponse (source : BitVec 4) (tag : BitVec 8) (status : Status) (data : List Byte) (s : State) :
    State :=
  match matchIssued source tag s.path.issued with
  | some q => ((s.settleIssued q.1 q.2).deliver q.1 status data).closeLaneIfDue q.1.lane
  | none =>
    if source = 15 then s
    else s.sendUp { source := source, tag := tag, status := status, data := data }

end Sys2Proof.Machine
end

