-- ==== Sys2Proof/Machine/ExecDirectives.lean ====
section
/-! DEFINITION. The meanings of the eleven directives (R162) and of the events of the track table and the tally unit that
follow from other events: the drain end, the pending close and the tray record that waits outside (log entry 4). -/

namespace Sys2Proof.Machine

/-- RUN (R81). -/
def execRun (s : State) : Host.Outcome State Fault Refusal := .next s.directRun

/-- DRAIN (R82). -/
def execDrain (s : State) : Host.Outcome State Fault Refusal := .next s.directDrain

/-- STBY (R84). -/
def execStby (s : State) : Host.Outcome State Fault Refusal := .next s.directStby

/-- CLRS (R164). -/
def execClrs (s : State) : Host.Outcome State Fault Refusal := .next s.clearStatus

/-- TCLOSE (R131). -/
def execTclose (s : State) : Host.Outcome State Fault Refusal := .next (s.requestClose .tclose)

/-- CSUSP (R108). -/
def execCsusp (s : State) : Host.Outcome State Fault Refusal := .next s.suspend

/-- CRES (R109). -/
def execCres (s : State) : Host.Outcome State Fault Refusal := .next s.resume

/-- CREL (R110). -/
def execCrel (s : State) : Host.Outcome State Fault Refusal := .next s.releaseHold

/-- LOPEN (R162, R172). -/
def execLopen (operand : BitVec 8) (s : State) : Host.Outcome State Fault Refusal := .next (s.directLopen operand)

/-- LCLOSE (R162, R175). -/
def execLclose (operand : BitVec 8) (s : State) : Host.Outcome State Fault Refusal := .next (s.directLclose operand)

/-- RESTART (R163). -/
def execRestart (s : State) : Host.Outcome State Fault Refusal := .next s.directRestart

/-- DRAIN_END (R83). -/
def execDrainEnd (s : State) : Host.Outcome State Fault Refusal := .next s.drainEndIfDue

/-- PENDING_CLOSE (R134). -/
def execPendingClose (s : State) : Host.Outcome State Fault Refusal := .next s.settlePending

/-- TRAY_RECORD_JOINING (R139). -/
def execTrayRecordJoining (s : State) : Host.Outcome State Fault Refusal := .next s.joinTrayRecord

end Sys2Proof.Machine
end

