-- ==== Sys2Proof/Machine/ExecPath.lean ====
section
/-! DEFINITION. The meanings of the path unit's commands: pin reset, requests, lane messages, issue, response, and the
events that follow from them. A command is an event: one whose condition does not hold does not happen and leaves the
state as it stands (log entry 4). A row that a request brings about presents its request (log entry 5). -/

namespace Sys2Proof.Machine

/-- PIN_RESET (R183, R167): every block at its reset state, the straps sampled, OPEN sent for BLK. The requests behind held
ones are discarded (log entry 6); the queue of waiting commands stays (log entry 2). DESIGN CHOICE, both. -/
def execPinReset (straps : BitVec 16) (s : State) : Host.Outcome State Fault Refusal :=
  .next { State.resetWith straps with pending := s.pending }

/-- REQUEST_PRESENTATION (R168 to R170). -/
def execRequestPresentation (r : Request) (s : State) : Host.Outcome State Fault Refusal :=
  .next (s.present r)

/-- REQUEST_ARRIVAL (R171): a request is presented, and arrives as its lane's queue has room. -/
def execRequestArrival (r : Request) (s : State) : Host.Outcome State Fault Refusal :=
  .next (s.present r)

/-- HELD_REQUEST_ARRIVAL (R170): held requests whose lanes have room arrive. -/
def execHeldRequestArrival (s : State) : Host.Outcome State Fault Refusal :=
  .next s.settleHeld

/-- IMAGE_WRITE (R1, R171): the write is presented; at its arrival the line parser of its side takes it. -/
def execImageWrite (r : Request) (s : State) : Host.Outcome State Fault Refusal :=
  .next (s.present r)

/-- SETUP_WRITE (R148, R149): the write is presented; at its arrival the setup capture unit takes it. -/
def execSetupWrite (r : Request) (s : State) : Host.Outcome State Fault Refusal :=
  .next (s.present r)

/-- DISPATCH_READ (R93): the read is presented; at its arrival the fill-in unit answers its dispatch slots. -/
def execDispatchRead (r : Request) (s : State) : Host.Outcome State Fault Refusal :=
  .next (s.present r)

/-- PRINT_READ (R111, R116): the read is presented; at its arrival the fill-in unit answers its print slots. -/
def execPrintRead (r : Request) (s : State) : Host.Outcome State Fault Refusal :=
  .next (s.present r)

/-- LIVE_READ (R145): the read is presented; at its arrival its live bytes are taken from one snapshot. -/
def execLiveRead (r : Request) (s : State) : Host.Outcome State Fault Refusal :=
  .next (s.present r)

/-- EXIT_WRITE (R86): the write is presented; at its arrival the track table takes its exit words. -/
def execExitWrite (r : Request) (s : State) : Host.Outcome State Fault Refusal :=
  .next (s.present r)

/-- PRINT_STATUS_WRITE (R118): the write is presented; at its arrival cancel control takes its status words. -/
def execPrintStatusWrite (r : Request) (s : State) : Host.Outcome State Fault Refusal :=
  .next (s.present r)

/-- GRANT (R173). -/
def execGrant (lane : Lane) (n : BitVec 6) (s : State) : Host.Outcome State Fault Refusal :=
  .next (s.takeGrant lane n.toNat)

/-- CREDIT (R174). -/
def execCredit (lane : Lane) (k : BitVec 6) (s : State) : Host.Outcome State Fault Refusal :=
  .next (s.takeCredit lane k.toNat)

/-- DROP (R176). -/
def execDrop (lane : Lane) (s : State) : Host.Outcome State Fault Refusal :=
  .next (s.takeDrop lane)

/-- ISSUE (R177 to R179, R182). -/
def execIssue (s : State) : Host.Outcome State Fault Refusal :=
  .next s.issueNext

/-- RESPONSE (R180, R181, R136, R141). -/
def execResponse (source : BitVec 4) (tag : BitVec 8) (status : Status) (data : List Byte) (s : State) :
    Host.Outcome State Fault Refusal :=
  .next (s.takeResponse source tag status data)

/-- CLOSE (R175): a CLOSING lane with nothing outstanding sends CLOSE and goes DOWN. -/
def execClose (lane : Lane) (s : State) : Host.Outcome State Fault Refusal :=
  .next (s.closeLaneIfDue lane)

end Sys2Proof.Machine
end

