-- ==== Sys2Proof/Machine/ExecRecords.lean ====
section
/-! DEFINITION. The meanings of the setup records: the capture of each kind with its body, checked and taken or refused
(R151). The setup write that carries a record is the command SETUP_WRITE. -/

namespace Sys2Proof.Machine

/-- MEMORY_MAP (R159, R160). -/
def execMemoryMap (m : MemoryMapRecord) (s : State) : Host.Outcome State Fault Refusal :=
  .next (s.takeMemoryMap m)

/-- SOURCE_TABLE (R159, R161). -/
def execSourceTable (m : SourceTableRecord) (s : State) : Host.Outcome State Fault Refusal :=
  .next (s.takeSourceTable m)

/-- LANE_MAP (R152, R170): the map is replaced, and held requests are looked up anew. -/
def execLaneMap (m : LaneMapRecord) (s : State) : Host.Outcome State Fault Refusal :=
  .next (s.takeLaneMap m).settleHeld

/-- ALARM (R166). -/
def execAlarm (mask : BitVec 16) (s : State) : Host.Outcome State Fault Refusal :=
  .next (s.takeAlarm mask)

/-- CORRECTION (R153, R157). -/
def execCorrection (m : CorrectionRecord) (s : State) : Host.Outcome State Fault Refusal :=
  .next (s.takeCorrection m)

/-- CLASS_TEST (R154, R157). -/
def execClassTest (m : ClassTestRecord) (s : State) : Host.Outcome State Fault Refusal :=
  .next (s.takeClassTest m)

/-- GEOMETRY (R155, R157). -/
def execGeometry (m : GeometryRecord) (s : State) : Host.Outcome State Fault Refusal :=
  .next (s.takeGeometry m)

/-- DECISION (R156, R157). -/
def execDecision (m : DecisionRecord) (s : State) : Host.Outcome State Fault Refusal :=
  .next (s.takeDecision m)

/-- TRAY_SET (R158, R135). -/
def execTraySet (m : TraySetRecord) (s : State) : Host.Outcome State Fault Refusal :=
  .next (s.takeTraySet m)

end Sys2Proof.Machine
end

