-- ==== Sys2Proof/Machine/Dispatch.lean ====
section
/-! DEFINITION. The dispatch: one arm for each command, each one direct call of its meaning. -/

namespace Sys2Proof.Machine

/-- The effect of a command on everything but the queue of waiting commands. -/
def exec (i : Instr) (s : State) : Host.Outcome State Fault Refusal :=
  match i with
  | .pinReset straps => Sys2Proof.Machine.execPinReset straps s
  | .requestPresentation r => Sys2Proof.Machine.execRequestPresentation r s
  | .requestArrival r => Sys2Proof.Machine.execRequestArrival r s
  | .heldRequestArrival => Sys2Proof.Machine.execHeldRequestArrival s
  | .imageWrite r => Sys2Proof.Machine.execImageWrite r s
  | .setupWrite r => Sys2Proof.Machine.execSetupWrite r s
  | .memoryMap m => Sys2Proof.Machine.execMemoryMap m s
  | .sourceTable m => Sys2Proof.Machine.execSourceTable m s
  | .laneMap m => Sys2Proof.Machine.execLaneMap m s
  | .alarm mask => Sys2Proof.Machine.execAlarm mask s
  | .correction m => Sys2Proof.Machine.execCorrection m s
  | .classTest m => Sys2Proof.Machine.execClassTest m s
  | .geometry m => Sys2Proof.Machine.execGeometry m s
  | .decision m => Sys2Proof.Machine.execDecision m s
  | .traySet m => Sys2Proof.Machine.execTraySet m s
  | .run => Sys2Proof.Machine.execRun s
  | .drain => Sys2Proof.Machine.execDrain s
  | .stby => Sys2Proof.Machine.execStby s
  | .clrs => Sys2Proof.Machine.execClrs s
  | .tclose => Sys2Proof.Machine.execTclose s
  | .csusp => Sys2Proof.Machine.execCsusp s
  | .cres => Sys2Proof.Machine.execCres s
  | .crel => Sys2Proof.Machine.execCrel s
  | .lopen operand => Sys2Proof.Machine.execLopen operand s
  | .lclose operand => Sys2Proof.Machine.execLclose operand s
  | .restart => Sys2Proof.Machine.execRestart s
  | .drainEnd => Sys2Proof.Machine.execDrainEnd s
  | .dispatchRead r => Sys2Proof.Machine.execDispatchRead r s
  | .printRead r => Sys2Proof.Machine.execPrintRead r s
  | .liveRead r => Sys2Proof.Machine.execLiveRead r s
  | .exitWrite r => Sys2Proof.Machine.execExitWrite r s
  | .printStatusWrite r => Sys2Proof.Machine.execPrintStatusWrite r s
  | .grant lane n => Sys2Proof.Machine.execGrant lane n s
  | .credit lane k => Sys2Proof.Machine.execCredit lane k s
  | .drop lane => Sys2Proof.Machine.execDrop lane s
  | .issue => Sys2Proof.Machine.execIssue s
  | .response source tag status data => Sys2Proof.Machine.execResponse source tag status data s
  | .pendingClose => Sys2Proof.Machine.execPendingClose s
  | .trayRecordJoining => Sys2Proof.Machine.execTrayRecordJoining s
  | .close lane => Sys2Proof.Machine.execClose lane s

end Sys2Proof.Machine
end

