-- ==== Sys2Proof/WellFormed.lean ====
section
/-! DEFINITION. When a command is well formed: what the widths of `Instr`'s operands do not already say. A request
has 1 to 32 beats; a WRITE has 8 enables and 8 data bytes per beat, a READ none (R168); a READ that a master sends
into a window, and a WRITE into one, have the kind their row names; a response carries whole beats (R180). -/

namespace Sys2Proof

/-- R168: the length is 1..32 beats and the payload has 8 bytes a beat, for a WRITE alone. -/
def Request.wellFormed (r : Request) : Bool :=
  decide (1 ≤ r.beats) && decide (r.beats ≤ 32) &&
    (match r.kind with
      | .read => r.payload.length == 0
      | .write => r.payload.length == 8 * r.beats)

/-- A well-formed request of one kind. -/
def Request.wellFormedAs (k : ReqKind) (r : Request) : Bool := r.wellFormed && decide (r.kind = k)

/-- The commands a sender can send: every operand in the range the spec gives it. -/
def Instr.wellFormed : Instr → Bool
  | .pinReset _ => true
  | .requestPresentation r => r.wellFormed
  | .requestArrival r => r.wellFormed
  | .heldRequestArrival => true
  | .imageWrite r => r.wellFormedAs .write
  | .setupWrite r => r.wellFormedAs .write
  | .memoryMap _ => true
  | .sourceTable _ => true
  | .laneMap _ => true
  | .alarm _ => true
  | .correction _ => true
  | .classTest _ => true
  | .geometry _ => true
  | .decision _ => true
  | .traySet _ => true
  | .run => true
  | .drain => true
  | .stby => true
  | .clrs => true
  | .tclose => true
  | .csusp => true
  | .cres => true
  | .crel => true
  | .lopen _ => true
  | .lclose _ => true
  | .restart => true
  | .drainEnd => true
  | .dispatchRead r => r.wellFormedAs .read
  | .printRead r => r.wellFormedAs .read
  | .liveRead r => r.wellFormedAs .read
  | .exitWrite r => r.wellFormedAs .write
  | .printStatusWrite r => r.wellFormedAs .write
  | .grant _ _ => true
  | .credit _ _ => true
  | .drop _ => true
  | .issue => true
  | .response _ _ _ data => decide (data.length % 8 = 0) && decide (data.length ≤ 256)
  | .pendingClose => true
  | .trayRecordJoining => true
  | .close _ => true

end Sys2Proof
end

