-- ==== Sys2Proof/Safety.lean ====
section
/-! DEFINITION. The laws that the spec says every state of the part obeys, as predicates over one state, and the words
the statements use: what a request meets when it is accepted at once, and what the windows see of it. -/

namespace Sys2Proof.Machine

/-! ## Laws of a state -/

/-- The piece numbers in the track table, oldest first. -/
def State.pieces (s : State) : List Nat := s.entries.map Entry.piece

/-- R71: never more than 12 entries, never two with one piece number, and an empty list in STANDBY. -/
structure State.TableLaw (s : State) : Prop where
  room     : s.entries.length ≤ 12
  distinct : s.pieces.Nodup
  standby  : s.mode = .standby → s.entries = []

/-- R77, R78: the kept generations other than the newest are held, at most one of them, and in STANDBY the staged set is
clean. -/
structure State.GenerationLaw (s : State) : Prop where
  held    : ∀ g ∈ s.gens.older, s.claims g.number = true
  few     : s.gens.older.length ≤ 1
  standby : s.mode = .standby → s.gens.dirty = false

/-- R3, R28: in STANDBY both parsers are in WAIT_HEADER and both sides' zone work is IDLE. -/
def State.QuietLaw (s : State) : Prop :=
  s.mode = .standby →
    s.parsers = { face := .waitHeader, back := .waitHeader } ∧ s.zones = { face := ZoneWork.idle, back := ZoneWork.idle }

/-- R121: the misprint count lies in 0..2 and stands at 2 only while HELD is set. -/
def State.MisprintLaw (s : State) : Prop :=
  s.cancel.misprints ≤ 2 ∧ (s.cancel.misprints = 2 → s.cancel.held = true)

/-- The sum of the eleven disposition totals (R129). -/
def dispositionTotals (t : TallyUnit) : Nat := (t.totals.toList.take 11).sum

/-- R126: no disposition total and not the opened counter stands at its top. -/
def TallyUnit.unsaturated (t : TallyUnit) : Prop :=
  t.opened < counterMax ∧ ∀ n ∈ t.totals.toList.take 11, n < counterMax

/-- R129: while no counter has saturated, the opened counter is the disposition totals and the entries together. -/
def State.OpenedLaw (s : State) : Prop :=
  s.tally.unsaturated → s.tally.opened = dispositionTotals s.tally + s.entries.length

/-- A report queue entry holds a tray record. -/
def ReportEntry.isTray (e : ReportEntry) : Bool :=
  match e.record with
  | .tray _ => true
  | .piece _ => false

/-- A report queue entry has been issued. -/
def ReportEntry.isIssued (e : ReportEntry) : Bool := decide (e.state ≠ .waiting)

/-- R137: every ISSUED entry stands older than every WAITING one. -/
def issuedFirst : List ReportEntry → Bool
  | [] => true
  | e :: es => if e.isIssued then issuedFirst es else es.all fun q => !q.isIssued

/-- R125, R139, R140: what the report queue holds of a tray record, by the state of the bank that is not ACTIVE. A
SEALED bank's record waits in the queue, or outside it with the queue full. -/
def State.TrayRecordLaw (s : State) : Prop :=
  match s.tally.other with
  | .free => s.report.queue.filter ReportEntry.isTray = []
  | .sealed counts data =>
      s.report.queue.filter ReportEntry.isTray =
          [{ record := .tray { data := data, counts := counts }, state := .waiting }] ∨
        (s.report.queue.filter ReportEntry.isTray = [] ∧ s.report.queue.length = 8)
  | .writing counts data =>
      ∃ tag, s.report.queue.filter ReportEntry.isTray =
        [{ record := .tray { data := data, counts := counts }, state := .issued tag }]

/-- R125, R134, R137, R139: the report queue and the banks agree. -/
structure State.ReportLaw (s : State) : Prop where
  room    : s.report.queue.length ≤ 8
  order   : issuedFirst s.report.queue = true
  banks   : s.TrayRecordLaw
  pending : s.tally.pending ≠ none → s.tally.other ≠ .free

/-- The tag of an injected write whose link stands. -/
def Issued.linkedTag (i : Issued) : Option Nat := if i.link = .injected true then some i.tag.toNat else none

/-- The tag of an injected write, linked or not. -/
def Issued.injectedTag (i : Issued) : Option Nat := if i.link = .forwarded then none else some i.tag.toNat

/-- The tag an ISSUED report queue entry is linked by. -/
def ReportEntry.tag? (e : ReportEntry) : Option Nat :=
  match e.state with
  | .issued tag => some tag
  | .waiting => none

/-- R182: the injected writes of the issued list carry different tags of 0 to 7, and those whose links stand are, in the
order of their issue, the ISSUED entries of the report queue. -/
structure State.LinkLaw (s : State) : Prop where
  tags   : (s.path.issued.filterMap Issued.injectedTag).Nodup
  low    : ∀ t ∈ s.path.issued.filterMap Issued.injectedTag, t < 8
  source : ∀ i ∈ s.path.issued, i.link ≠ .forwarded → i.source = 15 ∧ i.lane = .rpt
  links  : s.path.issued.filterMap Issued.linkedTag = s.report.queue.filterMap ReportEntry.tag?

/-- Section 9.3: the bounds of a lane: a credit count in 0..63 that is 0 while the lane is DOWN or OPENING. -/
def LaneUnit.Bounded (u : LaneUnit) : Prop :=
  u.credits ≤ 63 ∧ (u.state = .down ∨ u.state = .opening → u.credits = 0)

/-- The requests of the issued list that one lane issued. -/
def State.issuedOn (s : State) (l : Lane) : Nat := s.path.issued.countP fun i => decide (i.lane = l)

/-- R170, R178, R179 and section 9.3: the capacities of the path unit, and each lane's outstanding count. -/
structure State.PathLaw (s : State) : Prop where
  img         : s.path.queues.img.length ≤ 16
  ctl         : s.path.queues.ctl.length ≤ 8
  blk         : s.path.queues.blk.length ≤ 8
  issued      : s.path.issued.length ≤ 128
  guard       : s.path.guard ≤ 16
  lanes       : ∀ l, (s.lane l).Bounded
  outstanding : ∀ l, (s.lane l).outstanding = s.issuedOn l

/-- R170: at most one request is held for each class tag, and none whose lane's queue has room. -/
structure State.HoldingLaw (s : State) : Prop where
  one  : (s.path.held.map Request.classTag).Nodup
  full : ∀ r ∈ s.path.held, s.hasRoom (s.laneOf r) = false

/-- R24, R25, R154: the limits of a comparison; INSIDE and OUTSIDE ones are in order. -/
def Comparison.InRange (q : Comparison) : Prop :=
  q.lo ≤ 1023 ∧ q.hi ≤ 1023 ∧ (q.mode = .inside ∨ q.mode = .outside → q.lo ≤ q.hi)

/-- R154: the ranges of a class test (R24). -/
def ClassTest.InRange (t : ClassTest) : Prop :=
  t.primary.InRange ∧ (∀ q, t.secondary = some q → q.InRange) ∧
  (1 ≤ t.runFloor ∧ t.runFloor ≤ 255) ∧ (1 ≤ t.minLines ∧ t.minLines ≤ 160) ∧
    (1 ≤ t.minHits ∧ t.minHits ≤ 40800) ∧ (1 ≤ t.weight ∧ t.weight ≤ 255) ∧
    (t.earlyHits = 0 ∨ (t.minHits ≤ t.earlyHits ∧ t.earlyHits ≤ 40800))

/-- R23, R155, R156, R24: the ranges of a generation's settings. -/
structure Settings.InRange (st : Settings) : Prop where
  black    : ∀ sd, (st.correction.get sd).v.black ≤ 255 ∧ (st.correction.get sd).r.black ≤ 255 ∧
               (st.correction.get sd).l.black ≤ 255
  gain     : ∀ sd, (st.correction.get sd).v.gain ≤ 1023 ∧ (st.correction.get sd).r.gain ≤ 1023 ∧
               (st.correction.get sd).l.gain ≤ 1023
  tests    : ∀ k, (st.tests.get k).InRange
  zw       : 16 ≤ st.geometry.zw ∧ st.geometry.zw ≤ 160
  zh       : 8 ≤ st.geometry.zh ∧ st.geometry.zh ≤ 255
  lines    : 256 ≤ st.geometry.lineLimit ∧ st.geometry.lineLimit ≤ 1023
  faults   : st.geometry.lineFaultLimit ≤ 15
  ranks    : ranksPermute st.decision.ranks = true
  margin   : 50 ≤ st.decision.margin ∧ st.decision.margin ≤ 100
  xBand    : st.decision.xMin ≤ st.decision.xMax ∧ st.decision.xMax ≤ 1023
  yBand    : st.decision.yMin ≤ st.decision.yMax ∧ st.decision.yMax ≤ 511
  distance : st.decision.tolerance ≤ 63

/-- R158: the ranges of a tray set. -/
structure TraySet.InRange (ts : TraySet) : Prop where
  stackers : ∀ n ∈ ts.stackers.toList, n ≤ 15
  dies     : ts.diePh ≤ 3 ∧ ts.dieCol ≤ 3
  limit    : ts.pieceLimit ≤ 65535
  age      : 2 ≤ ts.ageLimit ∧ ts.ageLimit ≤ 11

/-- Every generation kept, the staged inspection set and both tray sets hold values in range (R151 to R158). -/
structure State.SettingsLaw (s : State) : Prop where
  newest  : s.gens.newest.settings.InRange
  older   : ∀ g ∈ s.gens.older, g.settings.InRange
  staged  : s.gens.staged.InRange
  inForce : s.trays.inForce.InRange
  next    : s.trays.staged.InRange

/-- R160, R161, R81: a captured memory map is in range and placed apart from the setup area, a captured source table
names ids 0..14 and a host source set that is not empty, and both stand captured in RUN and DRAIN. -/
structure State.PlacementLaw (s : State) : Prop where
  running : s.mode ≠ .standby → s.setup.map ≠ none ∧ s.setup.sources ≠ none
  map     : ∀ m, s.setup.map = some m → m.inRange = true ∧ m.placed s.setup.straps = true
  sources : ∀ t, s.setup.sources = some t →
    (∀ sd, t.heads.get sd ≤ 14) ∧ t.gate ≤ 14 ∧ t.printer ≤ 14 ∧ t.heads.face ≠ t.heads.back ∧ t.hosts ≠ 0

/-! ## What a command meets -/

/-- The lane of a request has room and nothing is held at the U-port: the request is accepted at once (R170). -/
def State.AcceptsAtOnce (s : State) (r : Request) : Prop :=
  s.path.held = [] ∧ s.hasRoom (s.laneOf r) = true

/-- The state once an accepted request stands in its lane's queue with a fill-in plan (R171). -/
def State.queued (s : State) (r : Request) (plan : FillPlan) : State :=
  s.enqueue (s.laneOf r) { request := r, plan := plan }

/-- No window sees a request (R168, R171): it crosses a 4 KiB boundary, it has source id 15, or none of its bytes lies
where its kind is looked at. -/
def State.UnseenByWindows (s : State) (r : Request) : Prop :=
  reqCrosses r = true ∨ r.source = 15 ∨
    match r.kind with
    | .read => ∀ m, s.setup.map = some m →
        reqTouches r m.dispatch 512 = false ∧ reqTouches r m.print 1024 = false ∧ reqTouches r m.live 256 = false
    | .write => reqTouches r (setupBase s.setup.straps) 1024 = false ∧
        ∀ m, s.setup.map = some m →
          (∀ sd, reqInside r (m.rings.get sd).base ((m.rings.get sd).count * 4096) = false) ∧
            reqTouches r m.exit 512 = false ∧ reqTouches r m.status 512 = false

/-- R1: a write that is an image write of a side and is accepted at once, its ring being `ring`. -/
structure State.ImageWriteAccepted (s : State) (sd : Side) (ring : Ring) (r : Request) : Prop where
  placed : s.PlacementLaw
  form   : r.wellFormedAs .write = true
  mode   : s.mode ≠ .standby
  map    : ∃ m, s.setup.map = some m ∧ m.rings.get sd = ring
  head   : ∃ t, s.setup.sources = some t ∧ t.heads.get sd = r.source.toNat
  inside : reqInside r ring.base (ring.count * 4096) = true
  page   : reqCrosses r = false
  room   : s.AcceptsAtOnce r

/-- The slot number of a request in a ring (R1). -/
def ringSlot (ring : Ring) (r : Request) : Nat := (reqLo r - ring.base) / 4096

/-- The slot offset of a request in a ring (R1). -/
def ringOffset (ring : Ring) (r : Request) : Nat := (reqLo r - ring.base) % 4096

/-- A request for exactly the `size` bytes of slot `j` of a window, accepted at once, with every law of the captured
placement. -/
structure State.SlotRequest (s : State) (k : ReqKind) (base size j : Nat) (r : Request) : Prop where
  placed : s.PlacementLaw
  form   : r.wellFormedAs k = true
  slot   : j < 64
  addr   : reqLo r = base + size * j
  length : 8 * r.beats = size
  source : r.source ≠ 15
  room   : s.AcceptsAtOnce r

/-- R95, R113: an entry is the oldest whose piece number modulo 64 is `j`; `older` and `younger` are the others. -/
structure State.MatchedBy (s : State) (j : Nat) (older : List Entry) (e : Entry) (younger : List Entry) : Prop where
  list     : s.entries = older ++ e :: younger
  slot     : e.piece % 64 = j
  oldest   : ∀ q ∈ older, q.piece % 64 ≠ j
  distinct : s.pieces.Nodup

/-- The fill-in plan that replaces all of a request's first bytes (R94, R112, R145). -/
def wholePlan (bytes : List Byte) : FillPlan := (List.range bytes.length).map fun o => (o, byteAt bytes o)

/-- A state's flags that are set stay set in another (R165). -/
def State.KeepsFlags (s t : State) : Prop := ∀ f, s.flagSet f = true → t.flagSet f = true

/-- The request a command presents at the U-port, if it presents one. -/
def requestOf : Instr → Option Request
  | .requestPresentation r => some r
  | .requestArrival r => some r
  | .imageWrite r => some r
  | .setupWrite r => some r
  | .dispatchRead r => some r
  | .printRead r => some r
  | .liveRead r => some r
  | .exitWrite r => some r
  | .printStatusWrite r => some r
  | _ => none

/-- R165: a command that can clear a status flag: pin reset, CLRS, RESTART, and a request that touches the setup area,
since the directives among its records may. -/
def State.MayClearFlags (s : State) (c : Instr) : Prop :=
  (∃ straps, c = .pinReset straps) ∨ c = .clrs ∨ c = .restart ∨
    ∃ r, requestOf c = some r ∧ reqTouches r (setupBase s.setup.straps) 1024 = true

/-! ## What an issue, an answer and a refusal leave behind -/

/-- R177, R178: the guard count after a grant to a lane. -/
def State.guardStep (s : State) (l : Lane) : Nat :=
  if l = .blk then 0 else if s.path.queues.blk = [] then s.path.guard else min 16 (s.path.guard + 1)

/-- R179: a lane after an issue: one credit less and one more outstanding request. -/
def LaneUnit.spent (u : LaneUnit) : LaneUnit := { u with credits := u.credits - 1, outstanding := u.outstanding + 1 }

/-- R179: the state after the oldest request `q` of a U-port lane has been sent, `rest` staying queued. -/
def State.forwarded (s : State) (l : UpLane) (q : Queued) (rest : List Queued) : State :=
  { s with path := { s.path with
      lanes := s.path.lanes.set l.toLane (s.lane l.toLane).spent
      queues := s.path.queues.set l rest
      guard := s.guardStep l.toLane
      downLog := s.path.downLog ++ [.request q.request]
      issued := s.path.issued ++
        [{ lane := l.toLane, source := q.request.source, tag := q.request.tag, kind := q.request.kind
           plan := q.plan, link := .forwarded }] } }

/-- R182: the injected write that carries the bytes of a record. -/
def recordWrite (addr : Nat) (tag : Nat) (bytes : List Byte) : Request :=
  { kind := .write, addr := BitVec.ofNat 32 addr, beats := bytes.length / 8, source := 15, classTag := 0
    tag := BitVec.ofNat 8 tag, payload := bytes.map fun b => (true, b) }

/-- R140, R179: the state after an injected write of the RPT lane has been sent, its report queue entry ISSUED. -/
def State.injected (s : State) (w : Request) (tag : Nat) (queue : List ReportEntry) : State :=
  { s with
    report := { s.report with queue := queue }
    path := { s.path with
      lanes := s.path.lanes.set .rpt (s.lane .rpt).spent
      guard := s.guardStep .rpt
      downLog := s.path.downLog ++ [.request w]
      issued := s.path.issued ++
        [{ lane := .rpt, source := 15, tag := BitVec.ofNat 8 tag, kind := .write, plan := []
           link := .injected true }] } }

/-- R182: a tag is the lowest of 0 to 7 that no injected write of the issued list carries. -/
def State.LowestFreeTag (s : State) (tag : Nat) : Prop :=
  tag < 8 ∧ tag ∉ s.path.issued.filterMap Issued.injectedTag ∧
    ∀ t < tag, t ∈ s.path.issued.filterMap Issued.injectedTag

/-- R180: the request a response answers: the oldest of the issued list with its source id and tag, between `before`
and `after`. -/
structure State.Answers (s : State) (src : BitVec 4) (tg : BitVec 8) (before : List Issued) (i : Issued)
    (after : List Issued) : Prop where
  list   : s.path.issued = before ++ i :: after
  source : i.source = src
  tag    : i.tag = tg
  oldest : ∀ j ∈ before, ¬(j.source = src ∧ j.tag = tg)

/-- R180, R175: the state once a matched request has left the issued list, `others` staying, `up` returned upstream: the
lane has one outstanding request less, and a CLOSING lane left with none sends CLOSE (type 2) and goes DOWN. -/
def State.answered (s : State) (l : Lane) (others : List Issued) (up : List UpReturn) : State :=
  let u := s.lane l
  if u.state = .closing ∧ u.outstanding - 1 = 0 then
    { s with path := { s.path with
        issued := others
        lanes := s.path.lanes.set l { state := .down, credits := 0, outstanding := 0 }
        upLog := s.path.upLog ++ up
        downLog := s.path.downLog ++ [.message (linkMessage 2 l 0)] } }
  else
    { s with path := { s.path with
        issued := others
        lanes := s.path.lanes.set l { u with outstanding := u.outstanding - 1 }
        upLog := s.path.upLog ++ up } }

/-- R151: the state after a record's refusal for a reason that is not ONCE. -/
def State.refusedFor (s : State) (reason : RefusalReason) : State :=
  { s with status := { s.status with flags := s.status.flags ||| 1#14, setupReason := reason } }

/-- R151: the state after the refusal of a repeated once-only record. -/
def State.refusedOnce (s : State) : State :=
  { s with status := { s.status with flags := s.status.flags ||| 5#14, setupReason := .once } }

/-- A state with one more status flag set, by the flag's number (R165, section 10.2). -/
def State.flagged (s : State) (n : Nat) : State :=
  { s with status := { s.status with flags := s.status.flags ||| BitVec.twoPow 14 n } }

/-- R77, R78: a staged set applied while no entry runs: it becomes the newest generation, numbered g + 1 modulo 256, and
no older one is kept. -/
def Generations.applied (g : Generations) (st : Settings) : Generations :=
  { newest := { number := (g.newest.number + 1) % 256, settings := st }, older := [], staged := st, dirty := false }

/-- R133, R135, R139: the state after an executed tray close. The ACTIVE bank is sealed with its seal data, the FREE bank
becomes ACTIVE, a dirty staged tray set is applied, and the tray record joins the report queue where there is room. -/
def State.trayClosed (s : State) (reason : CloseReason) (mark : SealMark) : State :=
  let d : SealData :=
    { trayNumber := s.tally.trayNumber, reason := reason, mark := mark, recordSeq := s.report.seq }
  { s with
    tally := { s.tally with
      active := match s.tally.active with
        | .a => .b
        | .b => .a
      counts := Vector.replicate 12 0
      other := .sealed s.tally.counts d
      trayNumber := s.tally.trayNumber + 1 }
    trays := { s.trays with inForce := if s.trays.dirty then s.trays.staged else s.trays.inForce, dirty := false }
    report := { s.report with
      queue := if s.report.queue.length < 8 then
          s.report.queue ++ [{ record := .tray { data := d, counts := s.tally.counts }, state := .waiting }]
        else s.report.queue } }

/-- No tray record stands in the report queue. -/
def State.NoTrayQueued (s : State) : Prop := ∀ e ∈ s.report.queue, e.isTray = false

/-- R126: a counter after an increment, held at 4,294,967,295. -/
def stepUp (n : Nat) : Nat := max n (min 4294967295 (n + 1))

/-- R126, R128: a category counted in the ACTIVE bank and in the totals, each held at 4,294,967,295. -/
def TallyUnit.counted (t : TallyUnit) (k : Fin 12) : TallyUnit :=
  { t with
    counts := t.counts.set k (stepUp t.counts[k])
    totals := t.totals.set k (stepUp t.totals[k]) }

/-- R162, section 10.4: the directive a code and an operand give, if the code is one of the eleven. -/
def directiveOf (code operand : BitVec 8) : Option Instr :=
  [.run, .drain, .stby, .clrs, .tclose, .csusp, .cres, .crel, .lopen operand, .lclose operand, .restart][code.toNat - 1]?.filter
    fun _ => decide (code ≠ 0)

/-- R154: a comparison whose channel or mode names none, or whose clamped limits break the order INSIDE (2) and OUTSIDE (3)
ask for. -/
def comparisonBreaks (q : ComparisonRecord) : Prop :=
  2 < q.channel.toNat ∨ 3 < q.mode.toNat ∨ (2 ≤ q.mode.toNat ∧ min q.hi.toNat 1023 < min q.lo.toNat 1023)

/-- R130: the pending close after a close request that finds the other bank not FREE: it is made, or merged into. -/
def Pending.asked (reason : CloseReason) : Option Pending → Pending
  | none => { reason := reason, merged := false }
  | some p => { reason := p.reason, merged := true }

/-- R130: the state after a close request that finds the other bank not FREE. -/
def State.closeWaits (s : State) (reason : CloseReason) : State :=
  { s with tally := { s.tally with pending := some (Pending.asked reason s.tally.pending) } }

/-- R130: the state after a close request: executed at once where the other bank is FREE, waiting where it is not. -/
def State.closeAsked (s : State) (reason : CloseReason) : State :=
  if s.tally.other = .free then s.trayClosed reason .none else s.closeWaits reason

/-- R132: the state after the limit check of a retirement. -/
def State.limitAsked (s : State) : State :=
  if s.trays.inForce.pieceLimit ≠ 0 ∧ s.trays.inForce.pieceLimit ≤ (s.tally.counts.toList.take 11).sum then
    s.closeAsked .limit
  else s

/-- R83, R3, R28, R78: the state once the mode has become STANDBY on an empty table: parsers and zone work at rest, a dirty
staged set applied. -/
def State.atRest (s : State) : State :=
  { s with
    mode := .standby
    parsers := { face := .waitHeader, back := .waitHeader }
    zones := { face := ZoneWork.idle, back := ZoneWork.idle }
    gens := if s.gens.dirty then s.gens.applied s.gens.staged else s.gens }

/-- R36: the newest 256 of the entries of a history ring, oldest first. -/
def newestLines (ring : List RingEntry) : List RingEntry := ring.drop (ring.length - 256)

/-- A counter after `n` increments, held at 4,294,967,295 (R126). -/
def stepUpBy (n c : Nat) : Nat := max c (min 4294967295 (c + n))

/-! ## Lines -/

/-- R17: an expected next index or a count of faulted lines after an increment, held at 1024. -/
def lineUp (n : Nat) : Nat := max n (min 1024 (n + 1))

/-- One side record of one piece changed. -/
def State.withSide (sd : Side) (piece : Nat) (f : SideRecord → SideRecord) (s : State) : State :=
  { s with entries := s.entries.map fun e =>
      if e.piece = piece then { e with sides := e.sides.set sd (f (e.sides.get sd)) } else e }

/-- One entry changed. -/
def State.withPiece (piece : Nat) (f : Entry → Entry) (s : State) : State :=
  { s with entries := s.entries.map fun e => if e.piece = piece then f e else e }

/-- The side's parser SKIPPING. -/
def State.skipped (sd : Side) (s : State) : State := { s with parsers := s.parsers.set sd .skipping }

/-- R15: the state once a line has ended: the parser in WAIT_HEADER, the line handed over if it is inspected, the side closed
if it carries TRAIL. -/
def State.lineEnded (sd : Side) (ln : Line) (s : State) : State :=
  let t : State := { s with parsers := s.parsers.set sd .waitHeader }
  let u := if ln.inspecting then t.handLine sd ln.piece ln.x (ln.bottom - ln.top) false else t
  if ln.trail then u.sideClose sd ln.piece ln.x else u

/-- R16: the state once a line has faulted: LINE_FAULT (flag 4), the parser SKIPPING, one more faulted line, the faulted line
handed over and the fault limit checked if it is inspected, the side closed if it carries TRAIL. -/
def State.lineFaulted (sd : Side) (ln : Line) (s : State) : State :=
  let t := ((s.skipped sd).withSide sd ln.piece fun q => { q with faulted := lineUp q.faulted }).flagged 4
  let u :=
    if ln.inspecting then (t.handLine sd ln.piece ln.x (ln.bottom - ln.top) true).faultLimitCheck ln.piece else t
  if ln.trail then u.sideClose sd ln.piece ln.x else u

/-- R6 steps 1 to 4: a header that its side's parser finds MALFORMED. -/
def Header.Bad (sd : Side) (h : Header) : Prop :=
  h.side ≠ sd ∨ h.samples < 64 ∨ 512 < h.samples ∨ h.bottom < h.top ∨ h.samples ≤ h.bottom ∨ (h.lead = true ∧ h.index ≠ 0)

/-- R11: the line in progress that an accepted header creates. -/
def Header.line (h : Header) (slot : Nat) (inspecting : Bool) : Line :=
  { piece := h.piece, x := h.index, slot := slot, samples := h.samples, top := h.top, bottom := h.bottom, lead := h.lead
    trail := h.trail, double := h.double, next := 0, inspecting := inspecting }

/-- R62: a LEAD corner qualifies for an early decision of a class. -/
def Entry.EarlyAt (e : Entry) (st : Settings) (facing : Vector Action 8) (k : Cls) (c : Corner) : Prop :=
  (e.zone c k).present = true ∧ (st.tests.get k).earlyHits ≤ (e.zone c k).hits ∧
    (facing[c] = .pass ∨ facing[c] = .flip)

/-- R62: the LEAD corner that an early decision of a class is taken from. -/
def Entry.EarlyFrom (e : Entry) (st : Settings) (facing : Vector Action 8) (k : Cls) (sd : Side) (c : Corner) : Prop :=
  let a := cornerOf sd .lead .top
  let b := cornerOf sd .lead .bottom
  let score : Corner → Nat := fun c => (e.zone c k).score
  (c = a ∧ e.EarlyAt st facing k a ∧
      (¬ e.EarlyAt st facing k b ∨ (facing[a] = facing[b] ∧ score b ≤ score a))) ∨
    (c = b ∧ e.EarlyAt st facing k b ∧
      (¬ e.EarlyAt st facing k a ∨ (facing[a] = facing[b] ∧ score a < score b)))

/-- R46, R62: the winner that a corner and a class give. -/
def Entry.winnerAt (e : Entry) (c : Corner) (k : Cls) : Winner :=
  { corner := c, cls := k, score := (e.zone c k).score, xc := (e.zone c k).xc, yc := (e.zone c k).yc
    e := (e.zone c k).e }

/-- R54, R55: the entry after a full decision with verdict `v`, whose written form is `w`. -/
def Entry.fullTaken (e : Entry) (v : Verdict) (w : Written) : Entry :=
  match e.decision with
  | none => { e with decision := some w.decision, remarks := if w.clamped then e.remarks ||| 4#17 else e.remarks }
  | some d => { e with remarks := if d.outcome ≠ v.outcome ∨ d.turn ≠ v.turn then e.remarks ||| 2#17 else e.remarks }

/-- R72, R77, R21: the state once the inspection of a piece has finished with the entry `e`: the lines of the piece in
progress are no longer inspected, and a generation that no running entry names is released. -/
def State.finishedWith (s : State) (e : Entry) : State :=
  let entries := s.entries.map fun q => if q.piece = e.piece then { e with running := false } else q
  { s with
    entries := entries
    parsers := s.parsers.map (Parser.clearMark e.piece)
    gens := { s.gens with
      older := s.gens.older.filter (fun g => entries.any (fun q => q.running && (q.generation == g.number))) } }

/-! ## Setup records -/

/-- R154, section 10.2: a comparison as its record gives it: the named channel and mode, the limits clamped to 1023. -/
def comparisonGives (m : ComparisonRecord) (q : Comparison) : Prop :=
  [Channel.v, .r, .l][m.channel.toNat]? = some q.channel ∧
    [CompareMode.above, .below, .inside, .outside][m.mode.toNat]? = some q.mode ∧
    q.lo = min m.lo.toNat 1023 ∧ q.hi = min m.hi.toNat 1023

/-! ## What the windows give and take -/

/-- R87, R90: the state once the entry `e` has left the table by an exit word, the entries in `left` standing: its category
counted, its parser line and zone work dropped, its generation released, and its piece record in the report queue, or
dropped with RECORD_DROP (flag 10). -/
def State.departed (s : State) (e : Entry) (d : Disposition) (left : List Entry) : State :=
  let held : Nat → Bool := fun n => left.any fun q => q.running && (q.generation == n)
  let p : PieceRecord := e.record d s.report.seq s.tally.trayNumber
  let t := { s with
    entries := left
    parsers := s.parsers.map (Parser.skipFor e.piece)
    zones := s.zones.map (ZoneWork.dropFor e.piece)
    gens := { s.gens with older := s.gens.older.filter fun g => held g.number }
    tally := s.tally.counted d.code
    report :=
      { queue := if s.report.queue.length < 8 then s.report.queue ++ [{ record := .piece p, state := .waiting }]
          else s.report.queue
        seq := s.report.seq + 1 } }
  if s.report.queue.length < 8 then t else t.flagged 10

/-! ## Requests in parts -/

/-- R2: the write of the first `n` beats of a write. -/
def beatsTo (n : Nat) (r : Request) : Request := { r with beats := n, payload := r.payload.take (8 * n) }

/-- R2: the write of a write's beats from number `n` on. -/
def beatsFrom (n : Nat) (r : Request) : Request :=
  { r with
    addr := r.addr + BitVec.ofNat 32 (8 * n), beats := r.beats - n, payload := r.payload.drop (8 * n) }

/-- R86, R93, R111, R118: what a request asks of the slot of `size` bytes at an address, as a request of that slot alone: a
WRITE enables there the bytes that the request enables, a READ asks for the slot in full. -/
def slotPart (size : Nat) (r : Request) (a : Nat) : Request :=
  { r with
    addr := BitVec.ofNat 32 a
    beats := size / 8
    payload := match r.kind with
      | .read => []
      | .write => (List.range size).map fun i =>
          match writtenAt r (a + i) with
          | some b => (true, b)
          | none => (false, 0) }

/-- R86, R93, R111, R118: the addresses of the slots of a window that a request touches, ascending. -/
def touchedSlots (r : Request) (base size count : Nat) : List Nat :=
  ((List.range count).map fun j => base + size * j).filter fun a => reqTouches r a size

/-- R94, R112: a slot's fill-in plan as far as a request covers the slot, counted from the request's first byte. -/
def coveredPlan (r : Request) (a : Nat) (plan : FillPlan) : FillPlan :=
  plan.filterMap fun p =>
    if reqLo r ≤ a + p.1 ∧ a + p.1 < reqHi r then some (a + p.1 - reqLo r, p.2) else none

/-- The fill-in plan of the youngest request of a request's lane. -/
def State.youngestPlan (s : State) (r : Request) : FillPlan :=
  match (s.path.queues.get (s.laneOf r)).getLast? with
  | some q => q.plan
  | none => []

/-- R86, R93, R111, R118: one slot taken by the command of that slot alone, in a state whose path unit is left as it stands,
and what the slot adds to a request's fill-in plan. -/
def State.slotTaken (c : Request → Instr) (size : Nat) (r : Request) (p : State × FillPlan) (a : Nat) : State × FillPlan :=
  match exec (c (slotPart size r a)) p.1 with
  | .next t => ({ t with path := p.1.path }, p.2 ++ coveredPlan r a (t.youngestPlan r))
  | _ => p

/-- R86, R93, R111, R118: a request's slots taken one after another, and its fill-in plan. -/
def State.slotsTaken (c : Request → Instr) (size : Nat) (r : Request) (slots : List Nat) (s : State) : State × FillPlan :=
  slots.foldl (State.slotTaken c size r) (s, [])

/-- R149, R150: one slot of a host write: the enabled bytes in the shadow, and the capture where all eight tail bytes are
enabled. -/
def State.hostSlot (r : Request) (s : State) (k : Fin 16) : State :=
  let slot := s.setup.straps.toNat * 65536 + 64 * k.val
  let shadow : Shadow := Vector.ofFn fun i => (writtenAt r (slot + i.val)).getD s.setup.shadows[k][i]
  let t := { s with setup := { s.setup with shadows := s.setup.shadows.set k shadow } }
  if (writtenBytes r (slot + 56) 8).isSome then t.takeRecord shadow.toList else t

end Sys2Proof.Machine
end

