-- ==== Sys2Proof/Certificates/Slice0/Obligations.lean ====
section
/-! DEFINITION. The statements for the provers. -/

open Sys2Proof Sys2Proof.Machine

/-! ## The machine as a whole -/

/-- O1. Log entry 3. A step takes the command at the front of the queue and executes it with the queue's rest; on an
empty queue the part idles (DESIGN CHOICE). -/
def Obligations.StepRunsTheFrontCommand : Prop :=
  (∀ (s : State) (c : Instr) (rest : List Instr),
    s.pending = c :: rest → step s = exec c { s with pending := rest }) ∧
  (∀ s : State, s.pending = [] → step s = .next s)

/-- O2. Log entries 2, 3 and 4. Every command completes in every state, and leaves the queue of waiting commands as it
stands. That PIN_RESET too leaves the queue is the model's choice (log entries 2 and 3), and so is that a row whose event
is not due completes by changing nothing (log entry 4). DESIGN CHOICE, all three. -/
def Obligations.EveryCommandCompletes : Prop :=
  ∀ (c : Instr) (s : State), ∃ t, exec c s = .next t ∧ t.pending = s.pending

/-- O3. R148, R159: nothing but pin reset changes the setup base, or a memory map or source table once captured. -/
def Obligations.PlacementLastsUntilPinReset : Prop :=
  ∀ (c : Instr) (s t : State), (∀ straps, c ≠ .pinReset straps) → exec c s = .next t →
    t.setup.straps = s.setup.straps ∧
    (∀ m, s.setup.map = some m → t.setup.map = some m) ∧
    (∀ x, s.setup.sources = some x → t.setup.sources = some x)

/-- O4. R165: a flag that is set stays set through a command that is not pin reset, CLRS, RESTART or a request touching
the setup area, no request being held at the U-port. -/
def Obligations.FlagsStaySet : Prop :=
  ∀ (c : Instr) (s t : State), s.path.held = [] → ¬ s.MayClearFlags c → exec c s = .next t → s.KeepsFlags t

/-! ## Laws that every step keeps -/

/-- O5. Pin reset leaves a state that obeys every law, whatever the straps. -/
def Obligations.PinResetObeysEveryLaw : Prop :=
  ∀ (straps : BitVec 16), let s := State.resetWith straps
    s.TableLaw ∧ s.GenerationLaw ∧ s.QuietLaw ∧ s.MisprintLaw ∧ s.OpenedLaw ∧ s.ReportLaw ∧ s.LinkLaw ∧ s.PathLaw ∧
      s.HoldingLaw ∧ s.SettingsLaw ∧ s.PlacementLaw

/-- O6. R71, R3, R28: every step keeps the track table's laws, and parsers and zone work at rest in STANDBY. -/
def Obligations.StepKeepsTableLaw : Prop :=
  ∀ s t : State, s.TableLaw → s.QuietLaw → step s = .next t → t.TableLaw ∧ t.QuietLaw

/-- O7. R77, R78: every step keeps the laws of the generations, at most two of which are held. -/
def Obligations.StepKeepsGenerationLaw : Prop :=
  ∀ s t : State, s.TableLaw → s.GenerationLaw → step s = .next t → t.GenerationLaw ∧ t.heldNumbers.length ≤ 2

/-- O8. R121: every step keeps the law of the misprint count. -/
def Obligations.StepKeepsMisprintLaw : Prop :=
  ∀ s t : State, s.MisprintLaw → step s = .next t → t.MisprintLaw

/-- O9. R129: every step keeps the balance of the opened counter. The totals and the counter only grow but for RESTART
and pin reset, so a state that is unsaturated after the step was so before it. -/
def Obligations.StepKeepsOpenedLaw : Prop :=
  ∀ s t : State, s.TableLaw → s.OpenedLaw → step s = .next t → t.OpenedLaw

/-- O10. R125, R134, R137, R139, R140: every step keeps the report queue and the banks in agreement. -/
def Obligations.StepKeepsReportLaw : Prop :=
  ∀ s t : State, s.ReportLaw → step s = .next t → t.ReportLaw

/-- O11. R182: every step keeps the links between the issued list and the report queue. -/
def Obligations.StepKeepsLinkLaw : Prop :=
  ∀ s t : State, s.ReportLaw → s.LinkLaw → step s = .next t → t.LinkLaw

/-- O12. R170, R178, R179, section 9.3: every step keeps the path unit's capacities and counts, and the law of the requests
held at the U-port. -/
def Obligations.StepKeepsPathLaw : Prop :=
  ∀ s t : State, s.PathLaw → s.HoldingLaw → step s = .next t → t.PathLaw ∧ t.HoldingLaw

/-- O13. R23, R24, R151 to R158: every step keeps all settings in their ranges. -/
def Obligations.StepKeepsSettingsLaw : Prop :=
  ∀ s t : State, s.SettingsLaw → step s = .next t → t.SettingsLaw

/-- O14. R81, R159 to R161: every step keeps the captured placement in order, and captured in RUN and DRAIN. -/
def Obligations.StepKeepsPlacementLaw : Prop :=
  ∀ s t : State, s.PlacementLaw → step s = .next t → t.PlacementLaw
/-! ## The path unit -/

/-- O15. R183, R167, R24, R47, R79, R135: what pin reset leaves: the path unit with BLK alone OPENING and OPEN for BLK (type
1, lane code 2, count 0: the word 17) as all that has been sent, the setup unit empty with the sampled straps, the mode
STANDBY, the table empty, and the default settings and tray set, spelled out value by value. The model's own, which no
rule states: the requests kept behind a held one are discarded (log entry 6), the two logs start anew (log entry 13), and a
default comparison's unread limit is 0 (log entry 12). -/
def Obligations.PinResetLeavesTheStatedState : Prop :=
  (∀ (straps : BitVec 16) (s : State), ∃ t, exec (.pinReset straps) s = .next t ∧
    t.path =
      { lanes :=
          { img := { state := .down, credits := 0, outstanding := 0 }
            ctl := { state := .down, credits := 0, outstanding := 0 }
            blk := { state := .opening, credits := 0, outstanding := 0 }
            rpt := { state := .down, credits := 0, outstanding := 0 } }
        queues := { img := [], ctl := [], blk := [] }, held := [], behind := [], issued := [], guard := 0
        downLog := [.message 17#16], upLog := [] } ∧
    t.setup =
      { straps := straps, shadows := Vector.replicate 16 (Vector.replicate 64 0), map := none, sources := none
        laneMap := Vector.replicate 7 .blk, alarmMask := 0 } ∧
    t.status = { flags := 0, setupReason := .none, runReason := .none } ∧
    t.gens = { newest := { number := 0, settings := Settings.default }, older := [], staged := Settings.default
               dirty := false } ∧
    t.trays = { inForce := TraySet.default, staged := TraySet.default, dirty := false } ∧
    t.mode = .standby ∧ t.entries = [] ∧ t.lastUninspected = none ∧
    t.parsers = { face := .waitHeader, back := .waitHeader } ∧
    t.zones = { face := ZoneWork.idle, back := ZoneWork.idle } ∧
    t.cancel = { suspended := false, held := false, misprints := 0 } ∧
    t.tally.active = .a ∧ t.tally.other = .free ∧ t.tally.counts = Vector.replicate 12 0 ∧
    t.tally.totals = Vector.replicate 12 0 ∧ t.tally.opened = 0 ∧ t.tally.trayNumber = 1 ∧ t.tally.pending = none ∧
    t.report = { queue := [], seq := 0 }) ∧
  (∀ sd, Settings.default.correction.get sd =
    { v := { black := 0, gain := 256 }, r := { black := 0, gain := 256 }, l := { black := 0, gain := 256 } }) ∧
  Settings.default.tests =
    { ph :=
        { primary := { channel := .l, mode := .above, lo := 0, hi := 600 }, secondary := none
          runFloor := 6, minLines := 12, minHits := 300, weight := 16, earlyHits := 0 }
      col :=
        { primary := { channel := .r, mode := .below, lo := 320, hi := 0 }, secondary := none
          runFloor := 8, minLines := 16, minHits := 500, weight := 12, earlyHits := 0 }
      fl :=
        { primary := { channel := .l, mode := .inside, lo := 250, hi := 600 }
          secondary := some { channel := .r, mode := .above, lo := 0, hi := 500 }
          runFloor := 6, minLines := 12, minHits := 300, weight := 16, earlyHits := 0 } } ∧
  Settings.default.geometry = { zw := 96, zh := 80, lineLimit := 800, lineFaultLimit := 3 } ∧
  Settings.default.decision =
    { ranks := { ph := 1, col := 2, fl := 3 }, margin := 80, xMin := 4, xMax := 160, yMin := 4, yMax := 160
      tolerance := 8 } ∧
  TraySet.default =
    { facing := #v[.pass, .cull, .cull, .rotate, .cull, .flip, .flipRotate, .cull]
      stackers := #v[0, 1, 2, 3, 4, 4, 5, 6], diePh := 0, dieCol := 1, pieceLimit := 0, ageLimit := 6 }

/-- O16. R168 to R171, R152: a request that no window sees and whose lane has room is queued at the young end of its lane
with no fill-in plan, and nothing else changes. A request is looked up by class tag; one whose lane is full is held, and
one of a class that has a request held stays behind it (the kept-behind list is log entry 6, DESIGN CHOICE). Held requests
stay held while their lanes are full; that the row changes nothing then is log entry 4 (DESIGN CHOICE). A sole held
request whose lane has room, seen by no window, arrives and is queued, by itself or by a LANE_MAP that moves its class to a
lane with room. -/
def Obligations.RequestIsQueuedOrHeld : Prop :=
  (∀ (s : State) (r : Request), r.wellFormed = true → s.AcceptsAtOnce r → s.UnseenByWindows r →
    exec (.requestArrival r) s = .next (s.queued r []) ∧ exec (.requestPresentation r) s = .next (s.queued r [])) ∧
  (∀ (s : State) (r : Request), r.classTag = 0 → s.laneOf r = .blk) ∧
  (∀ (s : State) (r : Request) (i : Fin 7), r.classTag.toNat = i.val + 1 → s.laneOf r = s.setup.laneMap[i]) ∧
  (∀ (s : State) (r : Request), (∀ h ∈ s.path.held, h.classTag ≠ r.classTag) → s.hasRoom (s.laneOf r) = false →
    exec (.requestPresentation r) s =
      .next { s with path := { s.path with held := s.path.held ++ [r] } }) ∧
  (∀ (s : State) (r : Request), (∃ h ∈ s.path.held, h.classTag = r.classTag) →
    exec (.requestPresentation r) s =
      .next { s with path := { s.path with behind := s.path.behind ++ [r] } }) ∧
  (∀ s : State, (∀ h ∈ s.path.held, s.hasRoom (s.laneOf h) = false) → exec .heldRequestArrival s = .next s) ∧
  (∀ (s : State) (r : Request), s.path.held = [r] → s.path.behind = [] → s.hasRoom (s.laneOf r) = true →
    s.UnseenByWindows r →
    exec .heldRequestArrival s =
      .next (({ s with path := { s.path with held := [] } } : State).queued r [])) ∧
  (∀ (s : State) (r : Request) (m : LaneMapRecord) (v : Vector UpLane 7), s.path.held = [r] → s.path.behind = [] →
    (∀ i : Fin 7, v[i].toLane.code = m.lanes[i].toNat) →
    let t : State := { s with setup := { s.setup with laneMap := v } }
    t.hasRoom (t.laneOf r) = true → t.UnseenByWindows r →
    exec (.laneMap m) s = .next (({ t with path := { t.path with held := [] } } : State).queued r []))

/-- O17. R173, GRANT: it acts on an OPENING lane alone, and with a DROP in either order leaves the lane DOWN with LANE_DROP
(flag 12) set. -/
def Obligations.GrantOpensOrDropsAnOpeningLane : Prop :=
  (∀ (l : Lane) (n : BitVec 6) (s : State), exec (.grant l n) s = .next (
    if (s.lane l).state = .opening then
      if n = 0 then
        ({ s with path := { s.path with
            lanes := s.path.lanes.set l { s.lane l with state := .down, credits := 0 } } } : State).flagged 12
      else
        { s with path := { s.path with
            lanes := s.path.lanes.set l { s.lane l with state := .up, credits := n.toNat } } }
    else s)) ∧
  (∀ (l : Lane) (n : BitVec 6) (s : State), (s.lane l).state = .opening → ∃ a t,
    exec (.grant l n) s = .next a ∧ exec (.drop l) a = .next t ∧
    exec (.drop l) s = .next t ∧ exec (.grant l n) t = .next t ∧
    (t.lane l).state = .down ∧ (t.lane l).credits = 0 ∧ t.flagSet .laneDrop = true)

/-- O18. R174: CREDIT. It acts on an UP and a CLOSING lane alone; a count of 0 changes nothing; one that finds an UP lane
with a request waiting and no credit makes the lane eligible. The count becomes 0 where a CLOSING lane goes DOWN. -/
def Obligations.CreditAddsUpToItsTop : Prop :=
  (∀ (l : Lane) (k : BitVec 6) (s : State), exec (.credit l k) s = .next (
    if (s.lane l).state = .up ∨ (s.lane l).state = .closing then
      { s with path := { s.path with
          lanes := s.path.lanes.set l { s.lane l with credits := min 63 ((s.lane l).credits + k.toNat) } } }
    else s)) ∧
  (∀ (l : Lane) (s : State), (s.lane l).credits ≤ 63 → exec (.credit l 0) s = .next s) ∧
  (∀ (l : Lane) (k : BitVec 6) (s t : State), (s.lane l).state = .up → (s.lane l).credits = 0 → s.hasRequest l = true →
    s.path.issued.length < 128 → k ≠ 0 → exec (.credit l k) s = .next t → t.eligible l = true) ∧
  (∀ (l : Lane) (s : State), (s.lane l).state = .closing → (s.lane l).outstanding = 0 →
    ∃ t, exec (.close l) s = .next t ∧ (t.lane l).state = .down ∧ (t.lane l).credits = 0)

/-- O19. R172, R175, R176, R162: LOPEN and LCLOSE of a lane by the operand, the CLOSE that waits for the last response, and
DROP. LOPEN of a DOWN lane sends OPEN (type 1), LCLOSE of an UP lane sends CLOSE (type 2) once nothing is outstanding;
elsewhere they are refused. A CLOSE row that is not due changes nothing (log entry 4, DESIGN CHOICE). DROP takes a lane
DOWN from every state and sets LANE_DROP (flag 12). -/
def Obligations.LanesOpenCloseAndDrop : Prop :=
  (∀ (l : Lane) (s : State), (s.lane l).state = .down →
    exec (.lopen (BitVec.ofNat 8 l.code)) s = .next { s with path := { s.path with
      lanes := s.path.lanes.set l { s.lane l with state := .opening, credits := 0 }
      downLog := s.path.downLog ++ [.message (linkMessage 1 l 0)] } }) ∧
  (∀ (l : Lane) (s : State), (s.lane l).state ≠ .down →
    exec (.lopen (BitVec.ofNat 8 l.code)) s = .next (s.refusedFor .wrongMode)) ∧
  (∀ (operand : BitVec 8) (s : State), 4 ≤ operand.toNat → exec (.lopen operand) s = .next (s.refusedFor .range)) ∧
  (∀ (l : Lane) (s : State), (s.lane l).state = .up → (s.lane l).outstanding = 0 →
    exec (.lclose (BitVec.ofNat 8 l.code)) s = .next { s with path := { s.path with
      lanes := s.path.lanes.set l { state := .down, credits := 0, outstanding := 0 }
      downLog := s.path.downLog ++ [.message (linkMessage 2 l 0)] } }) ∧
  (∀ (l : Lane) (s : State), (s.lane l).state = .up → (s.lane l).outstanding ≠ 0 →
    exec (.lclose (BitVec.ofNat 8 l.code)) s = .next { s with path := { s.path with
      lanes := s.path.lanes.set l { s.lane l with state := .closing } } }) ∧
  (∀ (l : Lane) (s : State), (s.lane l).state ≠ .up →
    exec (.lclose (BitVec.ofNat 8 l.code)) s = .next (s.refusedFor .wrongMode)) ∧
  (∀ (operand : BitVec 8) (s : State), 4 ≤ operand.toNat → exec (.lclose operand) s = .next (s.refusedFor .range)) ∧
  (∀ (l : Lane) (s : State), exec (.close l) s = .next (
    if (s.lane l).state = .closing ∧ (s.lane l).outstanding = 0 then
      { s with path := { s.path with
          lanes := s.path.lanes.set l { state := .down, credits := 0, outstanding := 0 }
          downLog := s.path.downLog ++ [.message (linkMessage 2 l 0)] } }
    else s)) ∧
  (∀ (l : Lane) (s : State), exec (.drop l) s = .next
    (({ s with path := { s.path with
        lanes := s.path.lanes.set l { s.lane l with state := .down, credits := 0 } } } : State).flagged 12))

/-- O20. R177, R178: which lane the arbiter grants. An ISSUE row with no lane eligible changes nothing (log entry 4, DESIGN
CHOICE). -/
def Obligations.ArbiterGrantsByPriorityAndGuard : Prop :=
  (∀ (s : State) (l : UpLane), s.eligible l.toLane = true ↔
    (s.lane l.toLane).state = .up ∧ 1 ≤ (s.lane l.toLane).credits ∧ s.path.queues.get l ≠ [] ∧
      s.path.issued.length < 128) ∧
  (∀ s : State, s.eligible .rpt = true ↔
    (s.lane .rpt).state = .up ∧ 1 ≤ (s.lane .rpt).credits ∧ (∃ e ∈ s.report.queue, e.state = .waiting) ∧
      (∃ tag, s.LowestFreeTag tag) ∧ s.path.issued.length < 128) ∧
  (∀ s : State, s.path.guard = 16 → s.eligible .blk = true → s.granted = some .blk) ∧
  (∀ s : State, s.path.guard ≠ 16 ∨ s.eligible .blk = false → s.granted =
    if s.eligible .img = true then some .img
    else if s.eligible .ctl = true then some .ctl
    else if s.eligible .rpt = true then some .rpt
    else if s.eligible .blk = true then some .blk
    else none) ∧
  (∀ s : State, s.granted = none → exec .issue s = .next s)

/-- O21. R178: among 17 grants one after another, with BLK eligible at each, one goes to BLK. -/
def Obligations.BlkIsGrantedWithinSeventeenGrants : Prop :=
  ∀ σ : Nat → State, (σ 0).path.guard ≤ 16 →
    (∀ k < 17, exec .issue (σ k) = .next (σ (k + 1))) → (∀ k < 17, (σ k).eligible .blk = true) →
    ∃ k < 17, (σ k).granted = some .blk

/-- O22. R179, R170: the issue of a granted IMG, CTL or BLK lane sends its oldest request unchanged; the place it frees
admits a held request of that lane. -/
def Obligations.IssueSendsTheOldestRequest : Prop :=
  (∀ (s : State) (l : UpLane) (q : Queued) (rest : List Queued),
    s.granted = some l.toLane → s.path.queues.get l = q :: rest → s.path.held = [] →
    exec .issue s = .next (s.forwarded l q rest)) ∧
  (∀ (s : State) (l : UpLane) (q : Queued) (rest : List Queued) (r : Request),
    s.granted = some l.toLane → s.path.queues.get l = q :: rest → rest.length < l.capacity →
    s.path.held = [r] → s.path.behind = [] → s.laneOf r = l → s.UnseenByWindows r →
    exec .issue s =
      .next (({ s.forwarded l q rest with
        path := { (s.forwarded l q rest).path with held := [] } } : State).queued r []))

/-- O23. R140, R179, R182: the issue of a granted RPT lane, the memory map being captured, sends the oldest WAITING record
as an injected write of 4 or 16 beats to its ring slot; the entry becomes ISSUED, and a tray record's bank WRITING. -/
def Obligations.IssueSendsTheOldestRecord : Prop :=
  (∀ (s : State) (m : MemoryMap) (tag : Nat) (older younger : List ReportEntry) (p : PieceRecord),
    s.granted = some .rpt → s.setup.map = some m → s.LowestFreeTag tag →
    s.report.queue = older ++ { record := .piece p, state := .waiting } :: younger →
    (∀ e ∈ older, e.state ≠ .waiting) →
    exec .issue s = .next (s.injected
      (recordWrite (m.pieceRing.base + p.seq.toNat % m.pieceRing.count * 32) tag (PieceRecord.bytes p)) tag
      (older ++ { record := .piece p, state := .issued tag } :: younger))) ∧
  (∀ (s : State) (m : MemoryMap) (tag : Nat) (older younger : List ReportEntry) (c : Counts) (d : SealData),
    s.granted = some .rpt → s.setup.map = some m → s.LowestFreeTag tag →
    s.report.queue = older ++ { record := .tray { data := d, counts := c }, state := .waiting } :: younger →
    (∀ e ∈ older, e.state ≠ .waiting) → s.tally.other = .sealed c d →
    exec .issue s = .next (({ s with tally := { s.tally with other := .writing c d } } : State).injected
      (recordWrite (m.trayRing.base + d.trayNumber.toNat % m.trayRing.count * 128) tag
        (TrayRecord.bytes { data := d, counts := c })) tag
      (older ++ { record := .tray { data := d, counts := c }, state := .issued tag } :: younger))) ∧
  (∀ p : PieceRecord, (PieceRecord.bytes p).length = 32) ∧ (∀ t : TrayRecord, (TrayRecord.bytes t).length = 128)

/-- O24. R180, R181, R175: the response of a forwarded request: a READ's data goes upstream through the substitution
point, a WRITE's acknowledgement without data; the request leaves the issued list. The substitution point replaces each
byte that the plan lists by the plan's byte, and no other. -/
def Obligations.ResponseReturnsUpstream : Prop :=
  (∀ (s : State) (source : BitVec 4) (tag : BitVec 8) (status : Status) (data : List Byte)
    (before after : List Issued) (i : Issued), s.Answers source tag before i after → i.link = .forwarded →
    exec (.response source tag status data) s = .next (s.answered i.lane (before ++ after)
      [{ source := source, tag := tag, status := status
         data := match i.kind with
           | .read => substitute i.plan data
           | .write => [] }])) ∧
  (∀ (plan : FillPlan) (data : List Byte), (plan.map Prod.fst).Nodup →
    (substitute plan data).length = data.length ∧
    (∀ k b, (k, b) ∈ plan → k < data.length → (substitute plan data)[k]? = some b) ∧
    (∀ k, k ∉ plan.map Prod.fst → (substitute plan data)[k]? = data[k]?))

/-- O25. R141, R147, R180: the response to an injected write sends nothing upstream. A linked piece record leaves the report
queue, ERR setting REPORT_FAULT; a write whose link was cleared touches neither queue nor flags. A response that matches
nothing is returned as it came, or discarded when its source id is 15. -/
def Obligations.ResponseToAPieceRecord : Prop :=
  (∀ (s : State) (tag : BitVec 8) (status : Status) (data : List Byte) (before after : List Issued) (i : Issued)
    (older younger : List ReportEntry) (p : PieceRecord), s.Answers 15 tag before i after → i.link = .injected true →
    s.report.queue = older ++ { record := .piece p, state := .issued tag.toNat } :: younger →
    (∀ e ∈ older, e.state ≠ .issued tag.toNat) →
    ((∃ c d, s.tally.other = .sealed c d) → s.report.hasTray = true) →
    exec (.response 15 tag status data) s = .next (
      let t := ({ s with report := { s.report with queue := older ++ younger } } : State).answered i.lane
        (before ++ after) []
      if status = .err then t.flagged 11 else t)) ∧
  (∀ (s : State) (tag : BitVec 8) (status : Status) (data : List Byte) (before after : List Issued) (i : Issued),
    s.Answers 15 tag before i after → i.link = .injected false →
    exec (.response 15 tag status data) s = .next (s.answered i.lane (before ++ after) [])) ∧
  (∀ (s : State) (source : BitVec 4) (tag : BitVec 8) (status : Status) (data : List Byte),
    (∀ i ∈ s.path.issued, ¬(i.source = source ∧ i.tag = tag)) →
    exec (.response source tag status data) s = .next (
      if source = 15 then s
      else { s with path := { s.path with
        upLog := s.path.upLog ++ [{ source := source, tag := tag, status := status, data := data }] } }))

/-- O26. R136, R141, R133, R139: the response to a tray record frees its bank. With a close pending, the close is then
executed in the same event: the ACTIVE bank is sealed and its record joins the queue. -/
def Obligations.ResponseToATrayRecord : Prop :=
  ∀ (s : State) (tag : BitVec 8) (status : Status) (data : List Byte) (before after : List Issued) (i : Issued)
    (older younger : List ReportEntry) (c : Counts) (d : SealData),
    s.Answers 15 tag before i after → i.link = .injected true →
    s.report.queue = older ++ { record := .tray { data := d, counts := c }, state := .issued tag.toNat } :: younger →
    (∀ e ∈ older, e.state ≠ .issued tag.toNat) → (∀ e ∈ older ++ younger, e.isTray = false) →
    s.report.queue.length ≤ 8 → s.tally.other = .writing c d →
    let t := ({ s with
      report := { s.report with queue := older ++ younger }
      tally := { s.tally with other := .free } } : State).answered i.lane (before ++ after) []
    let u := if status = .err then t.flagged 11 else t
    (s.tally.pending = none → exec (.response 15 tag status data) s = .next u) ∧
    (∀ p, s.tally.pending = some p → exec (.response 15 tag status data) s = .next
      (({ u with tally := { u.tally with pending := none } } : State).trayClosed p.reason
        (if p.merged then .merged else .pending)))
/-! ## The setup capture unit -/

/-- O27. R151, R159 to R161: a MEMORY_MAP or a SOURCE_TABLE is answered by the first check that fails, and is kept when
none does. A memory map is in range when its counts, clamped, reach their least values and no extent runs past the last
address; it is well placed when every base keeps its alignment and no byte lies in two extents or in an extent and the
setup area. The map takes the record's nine bases and its clamped counts; each extent is a base, a size and an alignment. -/
def Obligations.OnceOnlyRecordsAreCheckedInOrder : Prop :=
  (∀ (m : MemoryMapRecord) (s : State), exec (.memoryMap m) s = .next (
    if s.mode ≠ .standby then s.refusedFor .wrongMode
    else if s.setup.map ≠ none then s.refusedOnce
    else if m.map.inRange = false then s.refusedFor .range
    else if m.map.placed s.setup.straps = false then s.refusedFor .overlap
    else { s with setup := { s.setup with map := some m.map } })) ∧
  (∀ (m : SourceTableRecord) (s : State), exec (.sourceTable m) s = .next (
    if s.mode ≠ .standby then s.refusedFor .wrongMode
    else if s.setup.sources ≠ none then s.refusedOnce
    else if 14 < m.faceHead.toNat ∨ 14 < m.backHead.toNat ∨ 14 < m.gate.toNat ∨ 14 < m.printer.toNat ∨
        m.faceHead = m.backHead ∨ m.hosts.setWidth 15 = 0 then s.refusedFor .range
    else { s with setup := { s.setup with
      sources := some
        { heads := { face := m.faceHead.toNat, back := m.backHead.toNat }, gate := m.gate.toNat
          printer := m.printer.toNat, hosts := m.hosts.setWidth 15 } } })) ∧
  (∀ m : MemoryMap, m.inRange = true ↔
    8 ≤ m.rings.face.count ∧ 8 ≤ m.rings.back.count ∧ 16 ≤ m.pieceRing.count ∧ 4 ≤ m.trayRing.count ∧
      ∀ x ∈ m.extents, x.1 + x.2.1 ≤ 2 ^ 32) ∧
  (∀ (m : MemoryMap) (straps : BitVec 16), m.inRange = true → (m.placed straps = true ↔
    (∀ x ∈ m.extents, x.2.2 ∣ x.1) ∧
      ((straps.toNat * 65536, 1024, 1) :: m.extents).Pairwise fun x y =>
        ∀ a, ¬(x.1 ≤ a ∧ a < x.1 + x.2.1 ∧ y.1 ≤ a ∧ a < y.1 + y.2.1))) ∧
  (∀ r : MemoryMapRecord,
    r.map.rings.face.count = min r.faceCount.toNat 256 ∧ r.map.rings.back.count = min r.backCount.toNat 256 ∧
      r.map.pieceRing.count = min r.pieceCount.toNat 4096 ∧ r.map.trayRing.count = min r.trayCount.toNat 256) ∧
  (∀ r : MemoryMapRecord,
    r.map.rings.face.base = r.faceBase.toNat ∧ r.map.rings.back.base = r.backBase.toNat ∧
      r.map.dispatch = r.dispatch.toNat ∧ r.map.print = r.print.toNat ∧ r.map.status = r.status.toNat ∧
      r.map.exit = r.exit.toNat ∧ r.map.live = r.live.toNat ∧ r.map.pieceRing.base = r.pieceBase.toNat ∧
      r.map.trayRing.base = r.trayBase.toNat) ∧
  (∀ m : MemoryMap, m.extents =
    [(m.rings.face.base, m.rings.face.count * 4096, 4096), (m.rings.back.base, m.rings.back.count * 4096, 4096),
      (m.dispatch, 512, 1024), (m.print, 1024, 1024), (m.status, 512, 1024), (m.exit, 512, 1024), (m.live, 256, 1024),
      (m.pieceRing.base, m.pieceRing.count * 32, 4096), (m.trayRing.base, m.trayRing.count * 128, 4096)])

/-- O28. R152, R166, R158, R135: LANE_MAP and ALARM replace the whole map and the whole mask. A lane byte of 3 or more
refuses the record. TRAY_SET replaces the staged tray set, which is applied at once in STANDBY and marked dirty otherwise;
out of range it is refused. In range the set holds the record's actions (1 PASS, 2 ROTATE, 3 FLIP, 4 FLIP_ROTATE, 5 CULL),
stackers, dies and limits. -/
def Obligations.LaneMapAlarmAndTraySetReplaceTheWhole : Prop :=
  (∀ (m : LaneMapRecord) (s : State), s.path.held = [] → (∀ i : Fin 7, m.lanes[i].toNat < 3) →
    ∃ v : Vector UpLane 7, (∀ i : Fin 7, (v[i].toLane.code) = m.lanes[i].toNat) ∧
      exec (.laneMap m) s = .next { s with setup := { s.setup with laneMap := v } }) ∧
  (∀ (m : LaneMapRecord) (s : State), s.path.held = [] → (∃ i : Fin 7, 3 ≤ m.lanes[i].toNat) →
    exec (.laneMap m) s = .next (s.refusedFor .range)) ∧
  (∀ (mask : BitVec 16) (s : State),
    exec (.alarm mask) s = .next { s with setup := { s.setup with alarmMask := mask.setWidth 14 } }) ∧
  (∀ s : State, s.alarmHigh = true ↔ ∃ f : Flag, s.flagSet f = true ∧ s.setup.alarmMask.getLsbD f.index = true) ∧
  (∀ (m : TraySetRecord) (s : State), m.inRange = true → s.mode = .standby →
    exec (.traySet m) s = .next { s with trays := { inForce := m.traySet, staged := m.traySet, dirty := false } }) ∧
  (∀ (m : TraySetRecord) (s : State), m.inRange = true → s.mode ≠ .standby →
    exec (.traySet m) s = .next { s with trays := { inForce := s.trays.inForce, staged := m.traySet, dirty := true } }) ∧
  (∀ (m : TraySetRecord) (s : State), m.inRange = false → exec (.traySet m) s = .next (s.refusedFor .range)) ∧
  (∀ m : TraySetRecord, m.inRange = true ↔
    (∀ c : Fin 8, 1 ≤ m.actions[c].toNat ∧ m.actions[c].toNat ≤ 5) ∧ (∀ k : Fin 8, m.stackers[k].toNat ≤ 15) ∧
      m.diePh.toNat ≤ 3 ∧ m.dieCol.toNat ≤ 3 ∧ 2 ≤ m.ageLimit.toNat ∧ m.ageLimit.toNat ≤ 11) ∧
  (∀ m : TraySetRecord, m.inRange = true →
    (∀ c : Fin 8, [Action.pass, .rotate, .flip, .flipRotate, .cull][m.actions[c].toNat - 1]? = some m.traySet.facing[c]) ∧
      (∀ k : Fin 8, m.traySet.stackers[k] = m.stackers[k].toNat) ∧ m.traySet.diePh = m.diePh.toNat ∧
      m.traySet.dieCol = m.dieCol.toNat ∧ m.traySet.pieceLimit = m.pieceLimit.toNat ∧
      m.traySet.ageLimit = m.ageLimit.toNat)

/-- O29. R151, R153 to R157, R78: in RUN and DRAIN a piece-boundary record in range replaces its part of the staged inspection
set and marks it dirty. In STANDBY, where the table is empty, it is applied at once as generation g + 1 modulo 256, no older
generation is kept, and the staged set is clean. The values a record gives: CORRECTION and DECISION clamp every
field, CLASS_TEST the limits of its comparisons (to 1023) and E (to 40800); GEOMETRY's stand as given. Out of range the
record is refused: SETUP_REFUSED and its reason are set, and the staged set and its mark stand. -/
def Obligations.PieceBoundaryRecordsAreStagedAppliedOrRefused : Prop :=
  (∀ (m : CorrectionRecord) (sd : Side) (s : State), s.mode ≠ .standby → sideOfByte m.side = some sd →
    exec (.correction m) s = .next { s with gens := { s.gens with
      staged := { s.gens.staged with correction := s.gens.staged.correction.set sd m.correction }, dirty := true } }) ∧
  (∀ (m : ClassTestRecord) (k : Cls) (t : ClassTest) (s : State), s.mode ≠ .standby → m.test = some (k, t) →
    exec (.classTest m) s = .next { s with gens := { s.gens with
      staged := { s.gens.staged with tests := s.gens.staged.tests.set k t }, dirty := true } }) ∧
  (∀ (m : GeometryRecord) (s : State), s.mode ≠ .standby → m.inRange = true →
    exec (.geometry m) s = .next { s with gens := { s.gens with
      staged := { s.gens.staged with geometry := m.geometry }, dirty := true } }) ∧
  (∀ (m : DecisionRecord) (s : State), s.mode ≠ .standby → m.settings.inRange = true →
    exec (.decision m) s = .next { s with gens := { s.gens with
      staged := { s.gens.staged with decision := m.settings }, dirty := true } }) ∧
  (∀ (m : CorrectionRecord) (sd : Side) (s : State), s.mode = .standby → s.entries = [] →
    sideOfByte m.side = some sd → exec (.correction m) s = .next { s with gens := (s.gens.applied
      { s.gens.staged with correction := s.gens.staged.correction.set sd m.correction }) }) ∧
  (∀ (m : ClassTestRecord) (k : Cls) (t : ClassTest) (s : State), s.mode = .standby → s.entries = [] →
    m.test = some (k, t) → exec (.classTest m) s = .next { s with gens := (s.gens.applied
      { s.gens.staged with tests := s.gens.staged.tests.set k t }) }) ∧
  (∀ (m : GeometryRecord) (s : State), s.mode = .standby → s.entries = [] → m.inRange = true →
    exec (.geometry m) s = .next { s with gens := (s.gens.applied
      { s.gens.staged with geometry := m.geometry }) }) ∧
  (∀ (m : DecisionRecord) (s : State), s.mode = .standby → s.entries = [] → m.settings.inRange = true →
    exec (.decision m) s = .next { s with gens := (s.gens.applied
      { s.gens.staged with decision := m.settings }) }) ∧
  (∀ c : ChannelRecord, c.clamped = { black := min c.black.toNat 255, gain := min c.gain.toNat 1023 }) ∧
  (∀ m : DecisionRecord, m.settings =
    { ranks := { ph := m.rankPh.toNat, col := m.rankCol.toNat, fl := m.rankFl.toNat }
      margin := max 50 (min m.margin.toNat 100), xMin := min m.xMin.toNat 1023, xMax := min m.xMax.toNat 1023
      yMin := min m.yMin.toNat 511, yMax := min m.yMax.toNat 511, tolerance := min m.tolerance.toNat 63 }) ∧
  (∀ m : CorrectionRecord, m.correction = { v := m.v.clamped, r := m.r.clamped, l := m.l.clamped }) ∧
  (∀ m : GeometryRecord, m.geometry =
    { zw := m.zw.toNat, zh := m.zh.toNat, lineLimit := m.lineLimit.toNat, lineFaultLimit := m.lineFaultLimit.toNat }) ∧
  (∀ (m : ClassTestRecord) (k : Cls) (t : ClassTest), m.test = some (k, t) →
    m.cls.toNat = k.code ∧ comparisonGives m.primary t.primary ∧
      (m.secondaryPresent = false → t.secondary = none) ∧
      (m.secondaryPresent = true → ∃ q, t.secondary = some q ∧ comparisonGives m.secondary q) ∧
      t.runFloor = m.runFloor.toNat ∧ t.minLines = m.minLines.toNat ∧ t.minHits = m.minHits.toNat ∧
      t.weight = m.weight.toNat ∧ t.earlyHits = min m.earlyHits.toNat 40800) ∧
  (∀ (m : CorrectionRecord) (s : State), 1 < m.side.toNat → exec (.correction m) s = .next (s.refusedFor .range)) ∧
  (∀ (m : ClassTestRecord) (s : State), m.test = none → exec (.classTest m) s = .next (s.refusedFor .range)) ∧
  (∀ m : ClassTestRecord, m.test = none ↔
    2 < m.cls.toNat ∨ comparisonBreaks m.primary ∨ (m.secondaryPresent = true ∧ comparisonBreaks m.secondary) ∨
      m.runFloor = 0 ∨ m.minLines = 0 ∨ 160 < m.minLines.toNat ∨ m.minHits = 0 ∨ 40800 < m.minHits.toNat ∨
      m.weight = 0 ∨ (m.earlyHits ≠ 0 ∧ m.earlyHits.toNat < m.minHits.toNat)) ∧
  (∀ (m : GeometryRecord) (s : State),
    m.zw.toNat < 16 ∨ 160 < m.zw.toNat ∨ m.zh.toNat < 8 ∨ 255 < m.zh.toNat ∨ m.lineLimit.toNat < 256 ∨
      1023 < m.lineLimit.toNat ∨ 15 < m.lineFaultLimit.toNat →
    exec (.geometry m) s = .next (s.refusedFor .range)) ∧
  (∀ (m : DecisionRecord) (s : State),
    ¬([m.rankPh.toNat, m.rankCol.toNat, m.rankFl.toNat].Perm [1, 2, 3]) ∨
      min m.xMax.toNat 1023 < min m.xMin.toNat 1023 ∨ min m.yMax.toNat 511 < min m.yMin.toNat 511 →
    exec (.decision m) s = .next (s.refusedFor .range))

/-- O30. R148 to R150: a setup write within one slot. A foreign one sets SETUP_FOREIGN and changes no shadow. A host one
copies its enabled bytes into the shadow; when it covers all eight tail bytes, the shadow is then captured. A setup write
that touches several slots, or lies partly outside the area and touches no other window, is tested as host or foreign once
and then taken slot by slot in ascending order, each slot's shadow and capture before the next slot. -/
def Obligations.SetupWriteShadowsItsSlot : Prop :=
  (∀ (s : State) (r : Request) (k : Fin 16), r.wellFormedAs .write = true → reqCrosses r = false → r.source ≠ 15 →
    s.AcceptsAtOnce r → s.PlacementLaw →
    reqInside r (s.setup.straps.toNat * 65536 + 64 * k.val) 64 = true →
    let slot := s.setup.straps.toNat * 65536 + 64 * k.val
    let shadow : Shadow := Vector.ofFn fun i => (writtenAt r (slot + i.val)).getD s.setup.shadows[k][i]
    let t := { s.queued r [] with setup := { s.setup with shadows := s.setup.shadows.set k shadow } }
    (∀ x, s.setup.sources = some x → x.hosts.getLsbD r.source.toNat = false →
      exec (.setupWrite r) s = .next ((s.queued r []).flagged 1)) ∧
    ((∀ x, s.setup.sources = some x → x.hosts.getLsbD r.source.toNat = true) →
      (∃ i : Fin 8, writtenAt r (slot + 56 + i.val) = none) → exec (.setupWrite r) s = .next t) ∧
    ((∀ x, s.setup.sources = some x → x.hosts.getLsbD r.source.toNat = true) →
      (∀ i : Fin 8, writtenAt r (slot + 56 + i.val) ≠ none) →
      exec (.setupWrite r) s = .next (t.takeRecord shadow.toList))) ∧
  (∀ (s : State) (r : Request), r.wellFormedAs .write = true → reqCrosses r = false → r.source ≠ 15 →
    s.AcceptsAtOnce r → reqTouches r (s.setup.straps.toNat * 65536) 1024 = true →
    (∀ m, s.setup.map = some m → reqTouches r m.exit 512 = false ∧ reqTouches r m.status 512 = false ∧
      ∀ sd, reqInside r (m.rings.get sd).base ((m.rings.get sd).count * 4096) = false) →
    (∀ x, s.setup.sources = some x → x.hosts.getLsbD r.source.toNat = false →
      exec (.setupWrite r) s = .next ((s.queued r []).flagged 1)) ∧
    ((∀ x, s.setup.sources = some x → x.hosts.getLsbD r.source.toNat = true) →
      exec (.setupWrite r) s = .next (((List.finRange 16).filter fun k =>
        reqTouches r (s.setup.straps.toNat * 65536 + 64 * k.val) 64).foldl (State.hostSlot r) (s.queued r []))))

/-- O31. R150, R184, R186, section 10.4: the capture of a shadow with each record kind is that record's own command, and any
other kind is refused with BAD_KIND. Each record's fields are the little-endian bytes of the shadow at the offsets of its
body layout. -/
def Obligations.CaptureTakesTheRecordOfItsKind : Prop :=
  (∀ (bs : List Byte) (s : State), s.path.held = [] →
    let kind := (byteAt bs 56).toNat
    (kind = 1 → exec (.memoryMap (memoryMapOfSlot bs)) s = .next (s.takeRecord bs)) ∧
    (kind = 2 → exec (.sourceTable (sourceTableOfSlot bs)) s = .next (s.takeRecord bs)) ∧
    (kind = 3 → exec (.laneMap (laneMapOfSlot bs)) s = .next (s.takeRecord bs)) ∧
    (kind = 4 → ∀ c ∈ directiveOf (byteAt bs 0) (byteAt bs 1), exec c s = .next (s.takeRecord bs)) ∧
    (kind = 4 → directiveOf (byteAt bs 0) (byteAt bs 1) = none → s.takeRecord bs = s.refusedFor .range) ∧
    (kind = 5 → exec (.alarm (slotHalf bs 0)) s = .next (s.takeRecord bs)) ∧
    (kind = 6 → exec (.correction (correctionOfSlot bs)) s = .next (s.takeRecord bs)) ∧
    (kind = 7 → exec (.classTest (classTestOfSlot bs)) s = .next (s.takeRecord bs)) ∧
    (kind = 8 → exec (.geometry (geometryOfSlot bs)) s = .next (s.takeRecord bs)) ∧
    (kind = 9 → exec (.decision (decisionOfSlot bs)) s = .next (s.takeRecord bs)) ∧
    (kind = 10 → exec (.traySet (traySetOfSlot bs)) s = .next (s.takeRecord bs)) ∧
    (kind = 0 ∨ 10 < kind → s.takeRecord bs = s.refusedFor .badKind)) ∧
  (∀ bs : List Byte,
    (let m := memoryMapOfSlot bs
     m.faceBase.toNat = word bs 0 ∧ m.faceCount.toNat = half bs 4 ∧ m.backBase.toNat = word bs 8 ∧
       m.backCount.toNat = half bs 12 ∧ m.dispatch.toNat = word bs 16 ∧ m.print.toNat = word bs 20 ∧
       m.status.toNat = word bs 24 ∧ m.exit.toNat = word bs 28 ∧ m.live.toNat = word bs 32 ∧
       m.pieceBase.toNat = word bs 36 ∧ m.pieceCount.toNat = half bs 40 ∧ m.trayBase.toNat = word bs 44 ∧
       m.trayCount.toNat = half bs 48) ∧
    (let m := sourceTableOfSlot bs
     m.faceHead = byteAt bs 0 ∧ m.backHead = byteAt bs 1 ∧ m.gate = byteAt bs 2 ∧ m.printer = byteAt bs 3 ∧
       m.hosts.toNat = half bs 4) ∧
    (∀ i : Fin 7, (laneMapOfSlot bs).lanes[i] = byteAt bs (i.val + 1)) ∧
    (slotHalf bs 0).toNat = half bs 0 ∧
    (let m := correctionOfSlot bs
     m.side = byteAt bs 0 ∧ m.v.black.toNat = half bs 2 ∧ m.v.gain.toNat = half bs 4 ∧ m.r.black.toNat = half bs 6 ∧
       m.r.gain.toNat = half bs 8 ∧ m.l.black.toNat = half bs 10 ∧ m.l.gain.toNat = half bs 12) ∧
    (let m := classTestOfSlot bs
     m.cls = byteAt bs 0 ∧ m.primary.channel = byteAt bs 1 ∧ m.primary.mode = byteAt bs 2 ∧
       (m.secondaryPresent = true ↔ (byteAt bs 3).toNat % 2 = 1) ∧ m.primary.lo.toNat = half bs 4 ∧
       m.primary.hi.toNat = half bs 6 ∧ m.secondary.channel = byteAt bs 8 ∧ m.secondary.mode = byteAt bs 9 ∧
       m.secondary.lo.toNat = half bs 10 ∧ m.secondary.hi.toNat = half bs 12 ∧ m.runFloor = byteAt bs 14 ∧
       m.weight = byteAt bs 15 ∧ m.minLines.toNat = half bs 16 ∧ m.minHits.toNat = half bs 18 ∧
       m.earlyHits.toNat = half bs 20) ∧
    (let m := geometryOfSlot bs
     m.zw.toNat = half bs 0 ∧ m.zh.toNat = half bs 2 ∧ m.lineLimit.toNat = half bs 4 ∧
       m.lineFaultLimit = byteAt bs 6) ∧
    (let m := decisionOfSlot bs
     m.rankPh = byteAt bs 0 ∧ m.rankCol = byteAt bs 1 ∧ m.rankFl = byteAt bs 2 ∧ m.margin = byteAt bs 3 ∧
       m.tolerance = byteAt bs 4 ∧ m.xMin.toNat = half bs 6 ∧ m.xMax.toNat = half bs 8 ∧ m.yMin.toNat = half bs 10 ∧
       m.yMax.toNat = half bs 12) ∧
    (let m := traySetOfSlot bs
     (∀ i : Fin 8, m.actions[i] = byteAt bs i.val ∧ m.stackers[i] = byteAt bs (i.val + 8)) ∧
       m.diePh = byteAt bs 16 ∧ m.dieCol = byteAt bs 17 ∧ m.pieceLimit.toNat = half bs 18 ∧
       m.ageLimit = byteAt bs 20))

/-! ## Directives and what follows from them -/

/-- O32. R82, R83, R130, R133, R78: DRAIN with entries in the table keeps them; out of place it is refused. On an empty table
DRAIN and DRAIN_END end the drain: a close with reason DRAIN is executed where the other bank is FREE and waits where it is
not, then STANDBY with parsers and zone work at rest, then a dirty staged set applied. That DRAIN_END changes nothing out
of place is log entry 4 (DESIGN CHOICE). -/
def Obligations.DrainEndsOnAnEmptyTable : Prop :=
  (∀ s : State, s.mode = .run → s.entries ≠ [] → exec .drain s = .next { s with mode := .drain }) ∧
  (∀ s : State, s.mode ≠ .run → exec .drain s = .next (s.refusedFor .wrongMode)) ∧
  (∀ s : State, s.mode ≠ .drain ∨ s.entries ≠ [] → exec .drainEnd s = .next s) ∧
  (∀ s : State, s.entries = [] → s.tally.other = .free → s.NoTrayQueued →
    (s.mode = .run → exec .drain s = .next (s.trayClosed .drain .none).atRest) ∧
    (s.mode = .drain → exec .drainEnd s = .next (s.trayClosed .drain .none).atRest)) ∧
  (∀ s : State, s.entries = [] → s.tally.other ≠ .free →
    (s.mode = .run → exec .drain s = .next (s.closeWaits .drain).atRest) ∧
    (s.mode = .drain → exec .drainEnd s = .next (s.closeWaits .drain).atRest))

/-- O33. R84: STBY has no effect in STANDBY. In RUN and DRAIN every entry retires ABORTED and is counted, the mode becomes
STANDBY with the table empty and parsers and zone work at rest, and the staged set is clean. Settings captured once, lanes,
queues, cancel state and opened counter stay. With no tray limit, an ABORT close follows the retirements: executed where the
other bank is FREE, its counts holding the ABORTED entries and its record sequence the one after their records, and waiting
where it is not. That an abort in DRAIN asks for this one close, with reason ABORT, and for no close of a drain end
is log entry 9 (DEDUCED, unsafe). -/
def Obligations.StbyAbortsEveryEntry : Prop :=
  (∀ s : State, s.mode = .standby → exec .stby s = .next s) ∧
  (∀ s : State, s.mode ≠ .standby → s.TableLaw → s.GenerationLaw → ∃ t, exec .stby s = .next t ∧
    t.mode = .standby ∧ t.entries = [] ∧
    t.parsers = { face := .waitHeader, back := .waitHeader } ∧
    t.zones = { face := ZoneWork.idle, back := ZoneWork.idle } ∧ t.gens.dirty = false ∧ t.gens.older = [] ∧
    t.gens.newest =
      (if s.gens.dirty then { number := (s.gens.newest.number + 1) % 256, settings := s.gens.staged } else s.gens.newest) ∧
    t.tally.totals[Disposition.aborted.code] =
      max s.tally.totals[Disposition.aborted.code]
        (min 4294967295 (s.tally.totals[Disposition.aborted.code] + s.entries.length)) ∧
    (∀ k : Fin 12, k ≠ Disposition.aborted.code → t.tally.totals[k] = s.tally.totals[k]) ∧
    t.report.seq = s.report.seq + BitVec.ofNat 32 s.entries.length ∧
    t.path = s.path ∧ t.setup = s.setup ∧ t.cancel = s.cancel ∧ t.tally.opened = s.tally.opened ∧
    t.lastUninspected = s.lastUninspected ∧ t.status.setupReason = s.status.setupReason ∧
    t.status.runReason = s.status.runReason ∧ s.KeepsFlags t ∧
    (∀ f, t.flagSet f = true → s.flagSet f = true ∨ f = .recordDrop) ∧
    (s.trays.inForce.pieceLimit = 0 →
      let n := s.entries.length
      let counts := s.tally.counts.set 10 (stepUpBy n s.tally.counts[10])
      (s.tally.other = .free → t.tally.active = s.tally.active.flip ∧ t.tally.counts = Vector.replicate 12 0 ∧
        t.tally.other = .sealed counts
          { trayNumber := s.tally.trayNumber, reason := .abort, mark := .none
            recordSeq := s.report.seq + BitVec.ofNat 32 n } ∧
        t.tally.trayNumber = s.tally.trayNumber + 1 ∧ t.tally.pending = s.tally.pending ∧
        t.trays = { s.trays with inForce := if s.trays.dirty then s.trays.staged else s.trays.inForce, dirty := false }) ∧
      (s.tally.other ≠ .free → t.tally.active = s.tally.active ∧ t.tally.counts = counts ∧
        t.tally.other = s.tally.other ∧ t.tally.trayNumber = s.tally.trayNumber ∧
        t.tally.pending = some (Pending.asked .abort s.tally.pending) ∧ t.trays = s.trays)))

/-- O34. R81, R164, R108 to R110, R163, R147. RUN. CLRS, CSUSP, CRES and CREL. RESTART: in STANDBY it returns counting and
inspection state to its reset values and clears the links of the injected writes, and keeps all else; in RUN and DRAIN it is
refused. A default comparison's unread limit is log entry 12 (DESIGN CHOICE). No premise says that the table is empty, as
every STANDBY state a run reaches has it (TableLaw): that RESTART leaves entries as they stand is log entry 14 (DESIGN
CHOICE). -/
def Obligations.RunClrsCancelAndRestartDirectives : Prop :=
  (∀ s : State, exec .run s = .next (
    match s.mode with
    | .run => s
    | .drain => { s with mode := .run }
    | .standby =>
      if s.setup.map = none then { s with status := { s.status with flags := s.status.flags ||| 8#14, runReason := .noMap } }
      else if s.setup.sources = none then
        { s with status := { s.status with flags := s.status.flags ||| 8#14, runReason := .noSources } }
      else if (s.lane .img).state ≠ .up ∨ (s.lane .ctl).state ≠ .up ∨ (s.lane .rpt).state ≠ .up ∨
          (s.lane .blk).state ≠ .up then
        { s with status := { s.status with flags := s.status.flags ||| 8#14, runReason := .laneNotUp } }
      else { s with
        mode := .run
        parsers := { face := .waitHeader, back := .waitHeader }
        zones := { face := ZoneWork.idle, back := ZoneWork.idle } })) ∧
  (∀ s : State,
    exec .clrs s = .next { s with status := { flags := 0, setupReason := .none, runReason := .none } } ∧
    exec .csusp s = .next { s with cancel := { s.cancel with suspended := true } } ∧
    exec .cres s = .next { s with cancel := { s.cancel with suspended := false } } ∧
    exec .crel s = .next { s with cancel := { s.cancel with held := false, misprints := 0 } }) ∧
  (∀ s : State, s.mode = .standby → exec .restart s = .next { s with
    status := { flags := 0, setupReason := .none, runReason := .none }
    gens :=
      { newest := { number := 0, settings := Settings.default }, older := [], staged := Settings.default, dirty := false }
    trays := { inForce := TraySet.default, staged := TraySet.default, dirty := false }
    lastUninspected := none
    cancel := { suspended := false, held := false, misprints := 0 }
    tally :=
      { active := .a, counts := Vector.replicate 12 0, other := .free, totals := Vector.replicate 12 0, opened := 0
        trayNumber := 1, pending := none }
    report := { queue := [], seq := 0 }
    path := { s.path with issued := s.path.issued.map fun i =>
      { i with link := if i.link = .forwarded then .forwarded else .injected false } } }) ∧
  (∀ s : State, s.mode ≠ .standby → exec .restart s = .next (s.refusedFor .wrongMode))

/-- O35. R130, R131, R133, R134, R139: TCLOSE closes the tray at once when the other bank is FREE; otherwise the request waits
as the pending close, or merges into it. A pending close is executed with its reason and mark once the other bank is FREE;
a tray record that waits outside the report queue joins it once there is room. Where that does not hold, the two events
change nothing (log entry 4, DESIGN CHOICE). -/
def Obligations.TrayClosesWaitAndMerge : Prop :=
  (∀ s : State, s.tally.other = .free → s.NoTrayQueued → exec .tclose s = .next (s.trayClosed .tclose .none)) ∧
  (∀ s : State, s.tally.other ≠ .free → s.tally.pending = none → exec .tclose s =
    .next { s with tally := { s.tally with pending := some { reason := .tclose, merged := false } } }) ∧
  (∀ (s : State) (p : Pending), s.tally.other ≠ .free → s.tally.pending = some p → exec .tclose s =
    .next { s with tally := { s.tally with pending := some { reason := p.reason, merged := true } } }) ∧
  (∀ (s : State) (p : Pending), s.tally.other = .free → s.tally.pending = some p → s.NoTrayQueued →
    exec .pendingClose s = .next (({ s with tally := { s.tally with pending := none } } : State).trayClosed p.reason
      (if p.merged then .merged else .pending))) ∧
  (∀ s : State, s.tally.other ≠ .free ∨ s.tally.pending = none → exec .pendingClose s = .next s) ∧
  (∀ (s : State) (c : Counts) (d : SealData), s.tally.other = .sealed c d → s.report.queue.length < 8 → s.NoTrayQueued →
    exec .trayRecordJoining s = .next { s with report := { s.report with
      queue := s.report.queue ++ [{ record := .tray { data := d, counts := c }, state := .waiting }] } }) ∧
  (∀ s : State, (∀ c d, s.tally.other ≠ .sealed c d) ∨ 8 ≤ s.report.queue.length ∨ ¬ s.NoTrayQueued →
    exec .trayRecordJoining s = .next s)
/-! ## Image writes -/

/-- O36. R5, R13, R14, R16: while no line is in progress, an image write whose first beat is not at slot offset 0 is only
forwarded; one at slot offset 0 whose 16 header bytes are not all enabled sets LINE_FAULT (flag 4) and leaves the parser
SKIPPING; one whose two beats are the header's hands the header to the header check. With a line in progress, a write at
slot offset 0 first faults that line, and a write to another slot of the ring faults it and does nothing else. -/
def Obligations.OnlyHeadersStartALine : Prop :=
  ∀ (s : State) (sd : Side) (ring : Ring) (r : Request), s.ImageWriteAccepted sd ring r →
    let q := s.queued r []
    let slot := ringSlot ring r
    ((∀ ln, s.parsers.get sd ≠ .inLine ln) →
      (8 ≤ ringOffset ring r → exec (.imageWrite r) s = .next q) ∧
      (ringOffset ring r = 0 → (∃ i : Fin 16, writtenAt r (reqLo r + i.val) = none) →
        exec (.imageWrite r) s = .next (({ q with parsers := s.parsers.set sd .skipping } : State).flagged 4)) ∧
      (∀ bs, ringOffset ring r = 0 → r.beats = 2 → writtenBytes r (reqLo r) 16 = some bs →
        exec (.imageWrite r) s = .next (q.takeHeader sd slot (Header.ofBytes bs)))) ∧
    (∀ ln, s.parsers.get sd = .inLine ln →
      (8 ≤ ringOffset ring r → ln.slot ≠ slot → exec (.imageWrite r) s = .next (q.lineFaulted sd ln)) ∧
      (ringOffset ring r = 0 → (∃ i : Fin 16, writtenAt r (reqLo r + i.val) = none) →
        exec (.imageWrite r) s = .next (((q.lineFaulted sd ln).skipped sd).flagged 4)) ∧
      (∀ bs, ringOffset ring r = 0 → r.beats = 2 → writtenBytes r (reqLo r) 16 = some bs →
        exec (.imageWrite r) s = .next ((q.lineFaulted sd ln).takeHeader sd slot (Header.ofBytes bs))))

/-- O37. R6, R9, R11, R29, R70, R73, R75, R85: a well-formed LEAD header, in a write of its own, of a piece without an entry.
In DRAIN it is counted UNINSPECTED (counter 11) unless it is the last such piece, and is skipped. In RUN, with room in the
table, no side to truncate or mark MISSING and DOUBLE clear, it opens an entry under the newest generation, or, the staged
set being dirty and fewer than two generations held, under the generation it applies, the older ones that are held being
kept; a dirty set that finds two held stays as it is. The line is in progress and the side's zone work LEADING. -/
def Obligations.LeadHeaderOpensOrCountsAPiece : Prop :=
  ∀ (s : State) (sd : Side) (ring : Ring) (r : Request) (bs : List Byte), s.ImageWriteAccepted sd ring r →
    (∀ ln, s.parsers.get sd ≠ .inLine ln) → ringOffset ring r = 0 → r.beats = 2 →
    writtenBytes r (reqLo r) 16 = some bs →
    let h := Header.ofBytes bs
    h.side = sd → 64 ≤ h.samples → h.samples ≤ 512 → h.top ≤ h.bottom → h.bottom < h.samples → h.lead = true →
    h.index = 0 → (∀ e ∈ s.entries, e.piece ≠ h.piece) → (∀ e ∈ s.entries, (e.sides.get sd).state ≠ .opened) →
    let q := s.queued r []
    let started : Nat → State := fun g => { q with
      entries := s.entries ++
        [{ Entry.fresh h.piece g with
           sides := (Entry.fresh h.piece g).sides.set sd
             { state := .opened, expected := 1, n := 0, faulted := 0, maxExtent := h.bottom - h.top } }]
      tally := { s.tally with opened := stepUp s.tally.opened }
      parsers := s.parsers.set sd (.inLine
        { piece := h.piece, x := 0, slot := ringSlot ring r, samples := h.samples, top := h.top, bottom := h.bottom
          lead := true, trail := h.trail, double := false, next := 0, inspecting := true })
      zones := s.zones.set sd
        { state := .leading, owner := some h.piece, line := none, tallies := LineTallies.zero, ring := [] } }
    (s.mode = .drain → s.lastUninspected = some h.piece →
      exec (.imageWrite r) s = .next { q with parsers := s.parsers.set sd .skipping }) ∧
    (s.mode = .drain → s.lastUninspected ≠ some h.piece →
      exec (.imageWrite r) s = .next { q with
        parsers := s.parsers.set sd .skipping
        lastUninspected := some h.piece
        tally := s.tally.counted 11 }) ∧
    (s.mode = .run → h.double = false → s.entries.length < 12 →
      (∀ e ∈ s.entries, (e.sides.get sd).state ≠ .notSeen) → s.gens.dirty = false →
      exec (.imageWrite r) s = .next (started s.gens.newest.number)) ∧
    (s.mode = .run → h.double = false → s.entries = [] → s.gens.dirty = true →
      exec (.imageWrite r) s =
        .next { started ((s.gens.newest.number + 1) % 256) with gens := s.gens.applied s.gens.staged }) ∧
    (s.mode = .run → h.double = false → s.entries.length < 12 →
      (∀ e ∈ s.entries, (e.sides.get sd).state ≠ .notSeen) → s.gens.dirty = true →
      (s.heldNumbers.length < 2 →
        exec (.imageWrite r) s = .next { started ((s.gens.newest.number + 1) % 256) with
          gens :=
            { newest := { number := (s.gens.newest.number + 1) % 256, settings := s.gens.staged }
              older := (s.gens.older ++ [s.gens.newest]).filter fun g =>
                s.entries.any fun e => e.running && (e.generation == g.number)
              staged := s.gens.staged
              dirty := false } }) ∧
      (2 ≤ s.heldNumbers.length → exec (.imageWrite r) s = .next (started s.gens.newest.number)))

/-- O38. R6, R7, R8, R10, R17, R20: the headers that start no line. MALFORMED, against an unknown piece or an OPEN side whose
inspection has finished, stands at the line limit, or goes on; DUPLICATE; ORPHAN, without a flag for the last-uninspected
piece in DRAIN; LINE_LIMIT; and MISMATCH, forward and backward. Each leaves the parser SKIPPING; all but LINE_LIMIT and the
quiet ORPHAN set LINE_FAULT (flag 4). -/
def Obligations.HeadersThatStartNoLine : Prop :=
  ∀ (s : State) (sd : Side) (slot : Nat) (h : Header),
    let overlong : State → State := fun t =>
      (t.withSide sd h.piece fun q => { q with state := .overlong, n := q.expected }).pieceFault h.piece .overlong
    (h.Bad sd → (∀ e, s.entry? h.piece = some e → (e.sides.get sd).state ≠ .opened) →
      s.takeHeader sd slot h = (s.skipped sd).flagged 4) ∧
    (∀ e, h.Bad sd → s.entry? h.piece = some e → (e.sides.get sd).state = .opened →
      let x := (e.sides.get sd).expected
      let limit := (s.settingsOf e.generation).geometry.lineLimit
      let t := (s.skipped sd).flagged 4
      let u := t.withSide sd h.piece fun q => { q with expected := lineUp q.expected, faulted := lineUp q.faulted }
      (e.running = true → limit ≤ x → s.takeHeader sd slot h = overlong t) ∧
      (e.running = true → x < limit →
        s.takeHeader sd slot h = (u.handLine sd h.piece x 0 true).faultLimitCheck h.piece) ∧
      (e.running = false → s.takeHeader sd slot h = u)) ∧
    (∀ e, ¬ h.Bad sd → h.lead = true → s.entry? h.piece = some e → (e.sides.get sd).state ≠ .notSeen →
      s.takeHeader sd slot h = (s.skipped sd).flagged 4) ∧
    (¬ h.Bad sd → h.lead = false → (∀ e, s.entry? h.piece = some e → (e.sides.get sd).state ≠ .opened) →
      s.takeHeader sd slot h =
        if s.mode = .drain ∧ s.lastUninspected = some h.piece then s.skipped sd else (s.skipped sd).flagged 4) ∧
    (∀ e, ¬ h.Bad sd → h.lead = false → s.entry? h.piece = some e → (e.sides.get sd).state = .opened →
      let x := (e.sides.get sd).expected
      let limit := (s.settingsOf e.generation).geometry.lineLimit
      let ahead := (s.flagged 4).withSide sd h.piece fun q =>
        { q with expected := h.index + 1, faulted := lineUp q.faulted }
      let behind := (s.flagged 4).withSide sd h.piece fun q => { q with faulted := lineUp q.faulted }
      (e.running = true → limit ≤ h.index → s.takeHeader sd slot h = (overlong s).skipped sd) ∧
      (x < h.index → e.running = true → h.index < limit →
        s.takeHeader sd slot h =
          ((ahead.handLine sd h.piece h.index (h.bottom - h.top) true).faultLimitCheck h.piece).skipped sd) ∧
      (x < h.index → e.running = false → s.takeHeader sd slot h = ahead.skipped sd) ∧
      (h.index < x → e.running = true → h.index < limit →
        s.takeHeader sd slot h = (behind.faultLimitCheck h.piece).skipped sd) ∧
      (h.index < x → e.running = false → s.takeHeader sd slot h = behind.skipped sd))

/-- O39. R6, R9, R11, R20, R29: the headers of a piece in the table that start a line: an accepted later line of an OPEN side,
and a LEAD of a side that is NOT_SEEN, with no side to truncate or mark MISSING, which also starts the side's zone work while
the inspection runs. DOUBLE, on any header that starts a line, marks the line and then raises the piece fault DOUBLE. -/
def Obligations.HeadersThatStartALine : Prop :=
  (∀ (s : State) (sd : Side) (slot : Nat) (h : Header) (older younger : List Entry) (e : Entry), ¬ h.Bad sd →
    h.double = false → s.entries = older ++ e :: younger → s.pieces.Nodup → e.piece = h.piece →
    let q := e.sides.get sd
    let started : SideRecord → State := fun q' => { s with
      entries := older ++ { e with sides := e.sides.set sd q' } :: younger
      parsers := s.parsers.set sd (.inLine (h.line slot e.running)) }
    (h.lead = false → q.state = .opened → q.expected = h.index →
      (e.running = true → h.index < (s.settingsOf e.generation).geometry.lineLimit) →
      s.takeHeader sd slot h =
        started { q with expected := h.index + 1, maxExtent := max q.maxExtent (h.bottom - h.top) }) ∧
    (h.lead = true → q.state = .notSeen → (∀ p ∈ s.entries, (p.sides.get sd).state ≠ .opened) →
      (∀ p ∈ older, (p.sides.get sd).state ≠ .notSeen) →
      let t := started { q with state := .opened, expected := 1, maxExtent := max q.maxExtent (h.bottom - h.top) }
      s.takeHeader sd slot h =
        if e.running = true then
          { t with zones := (s.zones.set sd
              { state := .leading, owner := some h.piece, line := none, tallies := LineTallies.zero, ring := [] }) }
        else t)) ∧
  (∀ (s : State) (sd : Side) (slot : Nat) (h : Header) (ln : Line), h.double = true →
    let t := s.takeHeader sd slot { h with double := false }
    t.parsers.get sd = .inLine ln →
    s.takeHeader sd slot h =
      ({ t with parsers := t.parsers.set sd (.inLine { ln with double := true }) } : State).pieceFault h.piece .double)

/-- O40. R9, R73, R74, R76, R132: what a well-formed LEAD header of a side not yet seen does first, said one step at a time:
each equation takes one step and leaves the header to the state after it. The other piece whose side is OPEN becomes
TRUNCATED; an open that finds 12 entries retires the oldest as LOST, with its limit check, and sets TABLE_FORCED (flag 5);
the oldest older entry whose side is NOT_SEEN becomes MISSING, at a side open and, the staged set being clean, at an open. -/
def Obligations.LeadHeadersTruncateForceOutAndMark : Prop :=
  ∀ (s : State) (sd : Side) (slot : Nat) (h : Header), ¬ h.Bad sd → h.lead = true → s.pieces.Nodup →
    (∀ e, s.entry? h.piece = some e → (e.sides.get sd).state = .notSeen) →
    (∀ o ∈ s.entries, o.piece ≠ h.piece → (o.sides.get sd).state = .opened →
      (∀ p ∈ s.entries, (p.sides.get sd).state = .opened → p.piece = o.piece) →
      s.takeHeader sd slot h =
        ((s.withSide sd o.piece fun q => { q with state := .truncated, n := q.expected }).pieceFault o.piece
          .truncated).takeHeader sd slot h) ∧
    ((∀ p ∈ s.entries, (p.sides.get sd).state ≠ .opened) →
      (∀ (e : Entry) (rest : List Entry), s.mode = .run → s.entry? h.piece = none → s.entries = e :: rest →
        s.entries.length = 12 → (s.tally.other = .free → s.NoTrayQueued) →
        s.takeHeader sd slot h =
          ((s.departed (e.retired .lost) .lost rest).limitAsked.flagged 5).takeHeader sd slot h) ∧
      (∀ (before after : List Entry) (o : Entry), s.entries = before ++ o :: after →
        (∀ p ∈ before, p.piece ≠ h.piece ∧ (p.sides.get sd).state ≠ .notSeen) → o.piece ≠ h.piece →
        (o.sides.get sd).state = .notSeen →
        (s.entry? h.piece ≠ none ∨
          (s.mode = .run ∧ s.entries.length < 12 ∧ s.gens.dirty = false ∧
            ∀ g ∈ s.gens.older, g.number ≠ s.gens.newest.number)) →
        s.takeHeader sd slot h =
          ((s.withSide sd o.piece fun q => { q with state := .missing, n := 0 }).pieceFault o.piece
            .sideMissing).takeHeader sd slot h))

/-- O41. R2, R12 to R16, R23, R31: a write of one beat to the slot of the line in progress. In order (at slot offset 16 + 4k,
full) it hands its samples, corrected, to the side's zone work while the inspecting mark is set and nothing otherwise; short
of the line's end it advances k by 2, and with the last sample, which stands alone in its beat where S is odd, it ends the
line. At offset 8, out of order in the sample region or not full, it faults the line. Beyond the sample region it is only
forwarded. `lineEnded` and `lineFaulted` say what follows: the parser's state, LINE_FAULT and the count, the handover of an
inspected line, and the close of a side at a TRAIL line. -/
def Obligations.SampleBeatsAdvanceEndOrFaultTheLine : Prop :=
  ∀ (s : State) (sd : Side) (ring : Ring) (r : Request) (ln : Line), s.ImageWriteAccepted sd ring r →
    s.parsers.get sd = .inLine ln → ringSlot ring r = ln.slot → r.beats = 1 → ringOffset ring r % 8 = 0 →
    let q := s.queued r []
    let o := ringOffset ring r
    let k := ln.next
    let moved : State := { q with parsers := s.parsers.set sd (.inLine { ln with next := k + 2 }) }
    let handed : Settings → Nat → Nat → ZoneWork → ZoneWork := fun st y w z =>
      z.takeSample st ln.piece ln.x ln.top ln.bottom y ((st.correction.get sd).sample w)
    (∀ bs, o = 16 + 4 * k → k + 1 < ln.samples → writtenBytes r (reqLo r) 8 = some bs →
      (ln.inspecting = false →
        (k + 2 < ln.samples → exec (.imageWrite r) s = .next moved) ∧
        (k + 2 = ln.samples → exec (.imageWrite r) s = .next (q.lineEnded sd ln))) ∧
      (∀ e, ln.inspecting = true → s.entry? ln.piece = some e →
        let st := s.settingsOf e.generation
        let zones := s.zones.set sd (handed st (k + 1) (word bs 4) (handed st k (word bs 0) (s.zones.get sd)))
        (k + 2 < ln.samples → exec (.imageWrite r) s = .next { moved with zones := zones }) ∧
        (k + 2 = ln.samples →
          exec (.imageWrite r) s = .next (({ q with zones := zones } : State).lineEnded sd ln)))) ∧
    (∀ bs, o = 16 + 4 * k → k + 1 = ln.samples → writtenBytes r (reqLo r) 4 = some bs →
      (ln.inspecting = false → exec (.imageWrite r) s = .next (q.lineEnded sd ln)) ∧
      (∀ e, ln.inspecting = true → s.entry? ln.piece = some e →
        exec (.imageWrite r) s = .next (({ q with
          zones := s.zones.set sd (handed (s.settingsOf e.generation) k (word bs 0) (s.zones.get sd)) } : State).lineEnded
            sd ln))) ∧
    (o = 8 ∨ (16 ≤ o ∧ o < 16 + 4 * ln.samples ∧
        (o ≠ 16 + 4 * k ∨ (k + 1 < ln.samples ∧ writtenBytes r (reqLo r) 8 = none) ∨
          (k + 1 = ln.samples ∧ writtenBytes r (reqLo r) 4 = none))) →
      exec (.imageWrite r) s = .next (q.lineFaulted sd ln)) ∧
    (16 ≤ o → 16 + 4 * ln.samples ≤ o → exec (.imageWrite r) s = .next q)

/-- O42. R2, R5, R12 to R14, R16: image writes of several beats, and image writes off a beat's boundary. An aligned image write
is its first `n` beats and then its other beats, taken one after the other as two image writes in the same lane, wherever it
is cut but between the two beats of a header; so it is its header, if it has one, and its beats one by one, and what a line's
end or a fault leaves for the rest of the write is what it leaves for the next write. A write whose address is no multiple
of 8 is partial in every beat: it faults a line in progress of another slot, or of its own where its first beat is not
beyond the samples, and is else only forwarded. One that begins in the first beat of a slot is an unreadable header write
(log entry 10, DEDUCED). -/
def Obligations.ImageWritesAreTakenBeatByBeat : Prop :=
  (∀ (s : State) (sd : Side) (ring : Ring) (r : Request) (n : Nat), s.ImageWriteAccepted sd ring r →
    ringOffset ring r % 8 = 0 → 1 ≤ n → n < r.beats → (ringOffset ring r = 0 → 2 ≤ n) →
    ∃ t u, exec (.imageWrite (beatsTo n r)) s = .next t ∧
      exec (.imageWrite (beatsFrom n r)) { t with path := s.path } = .next u ∧
      exec (.imageWrite r) s = .next { u with path := (s.queued r []).path }) ∧
  (∀ (s : State) (sd : Side) (ring : Ring) (r : Request), s.ImageWriteAccepted sd ring r → ringOffset ring r % 8 ≠ 0 →
    let q := s.queued r []
    let o := ringOffset ring r
    (8 ≤ o → (∀ ln, s.parsers.get sd ≠ .inLine ln) → exec (.imageWrite r) s = .next q) ∧
    (∀ ln, 8 ≤ o → s.parsers.get sd = .inLine ln → exec (.imageWrite r) s = .next
      (if ln.slot ≠ ringSlot ring r ∨ o / 8 * 8 < 16 + 4 * ln.samples then q.lineFaulted sd ln else q)) ∧
    (o < 8 → (∀ ln, s.parsers.get sd ≠ .inLine ln) → exec (.imageWrite r) s = .next ((q.skipped sd).flagged 4)) ∧
    (∀ ln, o < 8 → s.parsers.get sd = .inLine ln →
      exec (.imageWrite r) s = .next (((q.lineFaulted sd ln).skipped sd).flagged 4)))

/-- O43. R30, R32 to R36: the handover of a line, ended or faulted, to a side's zone work. IDLE takes none. Otherwise the
line becomes the newest of the ring's 256, faulted with zero tallies or with those of its own set, and the set is zeroed. In
LEADING an unfaulted line at x < zw is added to the side's LEAD corners, for each class whose run floor its hits of the band
reach, and at x ≥ zw − 1 the six LEAD records complete, the zone work goes to BODY and the decision unit is told. -/
def Obligations.LineHandoversFillRingAndLeadZones : Prop :=
  (∀ (s : State) (sd : Side) (piece x extent : Nat) (faulted : Bool) (e : Entry), s.entry? piece = some e →
    let st := s.settingsOf e.generation
    let z := s.zones.get sd
    let q : LineTallies := if faulted = false ∧ z.line = some (piece, x) then z.tallies else LineTallies.zero
    let taken : ZoneState → State := fun zs => { s with zones := (s.zones.set sd
      { state := zs, owner := z.owner, line := none, tallies := LineTallies.zero
        ring := newestLines (z.ring ++ [{ x := x, faulted := faulted, extent := extent, tallies := q }]) }) }
    let added : State → State := fun t =>
      if faulted = false ∧ x < st.geometry.zw then t.withPiece piece (Entry.addLine st sd .lead x extent q) else t
    (z.state = .idle → s.handLine sd piece x extent faulted = s) ∧
    (z.state = .body → s.handLine sd piece x extent faulted = taken .body) ∧
    (z.state = .leading → x + 1 < st.geometry.zw → s.handLine sd piece x extent faulted = added (taken .leading)) ∧
    (z.state = .leading → st.geometry.zw ≤ x + 1 →
      s.handLine sd piece x extent faulted =
        ((added (taken .body)).withPiece piece (Entry.completeEnd st sd .lead)).leadingNotice sd piece)) ∧
  (∀ (st : Settings) (sd : Side) (en : End) (x extent : Nat) (q : LineTallies) (e : Entry) (k : Cls),
    let e' := e.addLine st sd en x extent q
    e' = { e with zones := e'.zones } ∧
    (∀ ed, e'.zone (cornerOf sd en ed) k =
      if (st.tests.get k).runFloor ≤ ((q.get ed).get k).h then
        (e.zone (cornerOf sd en ed) k).addLine x extent ((q.get ed).get k)
      else e.zone (cornerOf sd en ed) k) ∧
    (∀ c, (∀ ed, c ≠ cornerOf sd en ed) → e'.zone c k = e.zone c k)) ∧
  (∀ (st : Settings) (sd : Side) (en : End) (e : Entry) (k : Cls),
    let e' := e.completeEnd st sd en
    e' = { e with zones := e'.zones } ∧
    (∀ ed, e'.zone (cornerOf sd en ed) k = (e.zone (cornerOf sd en ed) k).complete (st.tests.get k)) ∧
    (∀ c, (∀ ed, c ≠ cornerOf sd en ed) → e'.zone c k = e.zone c k)) ∧
  (∀ (x extent : Nat) (q : Tally) (z : ZoneRecord), (z.done = true → z.addLine x extent q = z) ∧
    (z.done = false → z.addLine x extent q =
      { z with lines := z.lines + 1, hits := z.hits + q.h, overs := z.overs + q.overs, xsum := z.xsum + x * q.h
               ysum := z.ysum + q.ysum, esum := z.esum + extent }))

/-- O44. R18, R35, R37: a side closes at position x with n = x + 1. Nothing but the side record changes once the inspection
has finished. While it runs, leading zones that are not complete complete first, with their notice; the TRAIL records are
built from the ring's unfaulted lines at x ≥ n − zw, oldest first, each class by its run floor, and complete; the side's zone
work is released; and the decision unit is told. -/
def Obligations.SideClosesBuildTrailingZones : Prop :=
  (∀ (s : State) (sd : Side) (piece x : Nat) (e : Entry), s.entry? piece = some e →
    let st := s.settingsOf e.generation
    let z := s.zones.get sd
    let u := s.withSide sd piece fun q => { q with state := .closed, n := x + 1 }
    let v := if z.state = .leading then
        (({ u with zones := s.zones.set sd { z with state := .body } } : State).withPiece piece
          (Entry.completeEnd st sd .lead)).leadingNotice sd piece
      else u
    ((e.sides.get sd).state ≠ .opened → s.sideClose sd piece x = s) ∧
    ((e.sides.get sd).state = .opened → e.running = false → s.sideClose sd piece x = u) ∧
    ((e.sides.get sd).state = .opened → e.running = true → z.state ≠ .idle →
      s.sideClose sd piece x =
        ({ v.withPiece piece (Entry.buildTrailing st sd (x + 1) z.ring) with
            zones := s.zones.set sd ZoneWork.idle } : State).closedNotice piece)) ∧
  (∀ (st : Settings) (sd : Side) (n : Nat) (ring : List RingEntry) (e : Entry) (k : Cls),
    let e' := e.buildTrailing st sd n ring
    e' = { e with zones := e'.zones } ∧
    (∀ ed, e'.zone (cornerOf sd .trail ed) k =
      (((ring.filter fun q => decide (n ≤ q.x + st.geometry.zw) && !q.faulted &&
          decide ((st.tests.get k).runFloor ≤ ((q.tallies.get ed).get k).h)).foldl
        (fun z q => z.addLine q.x q.extent ((q.tallies.get ed).get k)) (e.zone (cornerOf sd .trail ed) k)).complete
          (st.tests.get k))) ∧
    (∀ c, (∀ ed, c ≠ cornerOf sd .trail ed) → e'.zone c k = e.zone c k))

/-- O45. R20, R21, R43, R64 to R66, R77: a piece fault raised against an entry. Before the dispatch answer it gives the fault
decision; after it the decision and the answer stand and FAULT_AFTER_DISPATCH is added. It adds its own remark and takes none
away. It finishes an inspection that runs: the inspecting mark of the piece's lines in progress is cleared, the generation
is released, the piece's zone work is dropped, and its zone records that are not DONE are zeroed, DONE ones standing.
The entry's other parts, other entries and other state stand. The fault limit check of a piece whose inspection is running
raises LINE_FAULTS exactly when FACE and BACK together have more faulted lines than the limit of its generation. -/
def Obligations.PieceFaultDecidesAndFinishes : Prop :=
  (∀ (s : State) (piece : Nat) (f : PieceFault) (e : Entry), s.pieces.Nodup → s.entry? piece = some e →
    let t := s.pieceFault piece f
    (∃ e', t.entry? piece = some e' ∧
      e' = { e with running := false, decision := e'.decision, remarks := e'.remarks, zones := e'.zones } ∧
      e'.decision = (if e.dispatch = none then some
        { kind := .fault, outcome := .cullFault, turn := .none, winner := none, position := none, plan := none }
        else e.decision) ∧
      (∀ k, e'.hasRemark k = true ↔
        e.hasRemark k = true ∨ k = f.remark ∨ (e.dispatch ≠ none ∧ k = .faultAfterDispatch)) ∧
      (∀ c k, e'.zone c k =
        if e.running = true ∧ (e.zone c k).done = false then
          { done := false, lines := 0, hits := 0, overs := 0, xsum := 0, ysum := 0, esum := 0, present := false
            score := 0, xc := 0, yc := 0, e := 0 }
        else e.zone c k)) ∧
    (∀ p, p ≠ piece → t.entry? p = s.entry? p) ∧ t.pieces = s.pieces ∧
    (e.running = true → ∀ sd, (s.zones.get sd).owner = some piece → t.zones.get sd =
      { state := .idle, owner := none, line := none, tallies := LineTallies.zero, ring := [] }) ∧
    (∀ sd, (s.zones.get sd).owner ≠ some piece ∨ e.running = false → t.zones.get sd = s.zones.get sd) ∧
    (∀ sd ln, s.parsers.get sd = .inLine ln → t.parsers.get sd = .inLine
      (if e.running = true ∧ ln.piece = piece then { ln with inspecting := false } else ln)) ∧
    (∀ sd, (∀ ln, s.parsers.get sd ≠ .inLine ln) → t.parsers.get sd = s.parsers.get sd) ∧
    t.gens = (if e.running = true then
        { s.gens with older := s.gens.older.filter fun g =>
            s.entries.any fun q => decide (q.piece ≠ piece) && q.running && (q.generation == g.number) }
      else s.gens) ∧
    t.status = s.status ∧ t.tally = s.tally ∧ t.report = s.report ∧ t.mode = s.mode ∧ t.trays = s.trays ∧
    t.path = s.path ∧ t.setup = s.setup ∧ t.cancel = s.cancel ∧ t.lastUninspected = s.lastUninspected) ∧
  (∀ (s : State) (piece : Nat) (e : Entry), s.entry? piece = some e →
    (e.running = true →
      (s.settingsOf e.generation).geometry.lineFaultLimit < e.sides.face.faulted + e.sides.back.faulted →
      s.faultLimitCheck piece = s.pieceFault piece .lineFaults) ∧
    (e.running = false ∨
      e.sides.face.faulted + e.sides.back.faulted ≤ (s.settingsOf e.generation).geometry.lineFaultLimit →
      s.faultLimitCheck piece = s)) ∧
  (∀ (s : State) (piece : Nat), s.entry? piece = none → s.faultLimitCheck piece = s)

/-! ## Windows -/

/-- O46. R93 to R102: a dispatch read of one slot. From another source than the gate, or with no entry of the slot, it is
answered with memory data. Otherwise the oldest entry of the slot is answered: with its stored word again, or from its
decision part, or LATE with the provisional CULL_LATE and LATE_DISPATCH (flag 7). The word travels with the request. -/
def Obligations.DispatchReadIsAnsweredOnce : Prop :=
  ∀ (s : State) (m : MemoryMap) (x : SourceTable) (j : Nat) (r : Request), s.setup.map = some m →
    s.setup.sources = some x → s.SlotRequest .read m.dispatch 8 j r →
    (x.gate ≠ r.source.toNat ∨ (∀ e ∈ s.entries, e.piece % 64 ≠ j) →
      exec (.dispatchRead r) s = .next (s.queued r [])) ∧
    (∀ (older younger : List Entry) (e : Entry), x.gate = r.source.toNat → s.MatchedBy j older e younger →
      (∀ a, e.dispatch = some a → exec (.dispatchRead r) s = .next (s.queued r (wholePlan a.bytes))) ∧
      (∀ d, e.dispatch = none → e.decision = some d →
        let kind : OutcomeKind :=
          match d.outcome with
          | .stamp => if s.cancel.suspended = false ∧ s.cancel.held = false then .stampOk else .stampHeld
          | .meter => .meter
          | .cullNone => .cullNone
          | .cullAmbig => .cullAmbig
          | .cullCorner => .cullCorner
          | .cullFault => .cullFault
        let a : DispatchAnswer :=
          { piece := e.piece, kind := kind, turn := d.turn, stacker := s.trays.inForce.stackers[kind.code]
            early := decide (d.kind = .early)
            clamped := decide ((d.outcome = .stamp ∨ d.outcome = .meter) ∧ e.hasRemark .clamped = true)
            late := false }
        exec (.dispatchRead r) s = .next (({ s with
          entries := older ++ { e with dispatch := some a } :: younger } : State).queued r (wholePlan a.bytes))) ∧
      (e.dispatch = none → e.decision = none →
        let a : DispatchAnswer :=
          { piece := e.piece, kind := .cullLate, turn := .none, stacker := s.trays.inForce.stackers[6]
            early := false, clamped := false, late := true }
        exec (.dispatchRead r) s = .next ((({ s with
          entries := older ++ { e with dispatch := some a, disposition := some .cullLate } :: younger }
            : State).flagged 7).queued r (wholePlan a.bytes))))

/-- O47. R111 to R117: a print read of one slot. From another source than the printer, or with no entry of the slot,
it is answered with memory data. Otherwise the oldest entry of the slot is answered with its stored record again, or with
the record formed now and stored, a SKIP for HOLD or SUSPEND adding MISROUTED (remark 3). The record formed follows the
rows of R116. -/
def Obligations.PrintReadIsAnsweredOnce : Prop :=
  (∀ (s : State) (m : MemoryMap) (x : SourceTable) (j : Nat) (r : Request), s.setup.map = some m →
    s.setup.sources = some x → s.SlotRequest .read m.print 16 j r →
    (x.printer ≠ r.source.toNat ∨ (∀ e ∈ s.entries, e.piece % 64 ≠ j) →
      exec (.printRead r) s = .next (s.queued r [])) ∧
    (∀ (older younger : List Entry) (e : Entry), x.printer = r.source.toNat → s.MatchedBy j older e younger →
      (∀ a, e.print = some a → exec (.printRead r) s = .next (s.queued r (wholePlan a.bytes))) ∧
      (e.print = none →
        let a : PrintAnswer := { piece := e.piece, action := e.printAction s.cancel }
        let misrouted := a.action = .skip .hold ∨ a.action = .skip .suspend
        exec (.printRead r) s = .next (({ s with
          entries := older ++
            { e with print := some a, remarks := if misrouted then e.remarks ||| 8#17 else e.remarks } :: younger }
            : State).queued r (wholePlan a.bytes))))) ∧
  (∀ (c : Cancel) (e : Entry),
    (e.dispatch = none → e.printAction c = .skip .notDispatched) ∧
    (∀ a, e.dispatch = some a →
      (a.late = true → e.printAction c = .skip .late) ∧
      (a.late = false →
        (a.kind ∈ [OutcomeKind.cullNone, .cullAmbig, .cullCorner, .cullFault] → e.printAction c = .skip .culled) ∧
        (a.kind = .meter → e.printAction c = .skip .notStamp) ∧
        (a.kind = .stampHeld → e.printAction c = .skip .routedHeld) ∧
        (a.kind = .stampOk → c.held = true → e.printAction c = .skip .hold) ∧
        (a.kind = .stampOk → c.held = false → c.suspended = true → e.printAction c = .skip .suspend) ∧
        (∀ d, e.decision = some d → a.kind = .stampOk → c.held = false → c.suspended = false →
          (d.plan = some .skipBand ∨ d.plan = some .skipNotStamp → e.printAction c = .skip .band) ∧
          (∀ die p, d.plan = some (.print die) → d.position = some p → e.printAction c = .print p.1 p.2 die)))))

/-- O48. R145, R146: a read inside the live window is answered from one snapshot of the state at its arrival, and changes
nothing but its lane's queue; so are the bytes inside it of a read that lies partly outside and touches no other window. The
snapshot has 256 bytes; the first six are the mode, the occupancy, the two refusal reasons and the flags (the others: with
the formats). -/
def Obligations.LiveReadTakesASnapshot : Prop :=
  (∀ (s : State) (m : MemoryMap) (r : Request), s.setup.map = some m → s.PlacementLaw → r.wellFormedAs .read = true →
    r.source ≠ 15 → s.AcceptsAtOnce r → reqInside r m.live 256 = true →
    exec (.liveRead r) s = .next (s.queued r
      ((List.range (8 * r.beats)).map fun i => (i, byteAt s.liveBytes (reqLo r - m.live + i))))) ∧
  (∀ (s : State) (m : MemoryMap) (r : Request), s.setup.map = some m → r.wellFormedAs .read = true → r.source ≠ 15 →
    reqCrosses r = false → s.AcceptsAtOnce r → reqTouches r m.live 256 = true → reqTouches r m.dispatch 512 = false →
    reqTouches r m.print 1024 = false →
    exec (.liveRead r) s = .next (s.queued r ((List.range (8 * r.beats)).filterMap fun i =>
      if m.live ≤ reqLo r + i ∧ reqLo r + i < m.live + 256 then some (i, byteAt s.liveBytes (reqLo r + i - m.live))
      else none))) ∧
  (∀ s : State, s.liveBytes.length = 256 ∧ byteAt s.liveBytes 0 = BitVec.ofNat 8 s.mode.code ∧
    byteAt s.liveBytes 1 = BitVec.ofNat 8 s.entries.length ∧
    byteAt s.liveBytes 2 = BitVec.ofNat 8 s.status.setupReason.code ∧
    byteAt s.liveBytes 3 = BitVec.ofNat 8 s.status.runReason.code ∧
    half s.liveBytes 4 = s.status.flags.toNat)

/-- O49. R86 to R90, R132: an exit word. Unseen in STANDBY; refused with STRAY_WRITE (flag 13) from another source than the gate,
when not all enabled, for another slot, or for a piece that has no entry. Otherwise its entry departs with the disposition
R91 gives, the limit check follows, and the older entries age by 1: in RUN, or in DRAIN with entries left, where no entry
comes of age. A line in progress of the departing piece is left SKIPPING (R22; also of a piece whose inspection has
finished: log entry 11, DEDUCED). -/
def Obligations.ExitWordRetiresItsEntry : Prop :=
  ∀ (s : State) (m : MemoryMap) (x : SourceTable) (j : Nat) (r : Request), s.setup.map = some m →
    s.setup.sources = some x → s.SlotRequest .write m.exit 8 j r →
    (s.mode = .standby → exec (.exitWrite r) s = .next (s.queued r [])) ∧
    (s.mode ≠ .standby →
      (x.gate ≠ r.source.toNat ∨ writtenBytes r (reqLo r) 8 = none ∨
        (∃ bs, writtenBytes r (reqLo r) 8 = some bs ∧
          (half bs 0 % 64 ≠ j ∨ ∀ e ∈ s.entries, e.piece ≠ half bs 0))) →
      exec (.exitWrite r) s = .next ((s.queued r []).flagged 13)) ∧
    (∀ (bs : List Byte) (older younger : List Entry) (e : Entry), x.gate = r.source.toNat →
      writtenBytes r (reqLo r) 8 = some bs → half bs 0 % 64 = j → e.piece = half bs 0 →
      s.entries = older ++ e :: younger → s.pieces.Nodup → (s.tally.other = .free → s.NoTrayQueued) →
      s.mode = .run ∨ (s.mode = .drain ∧ older ++ younger ≠ []) →
      let used := min (byteAt bs 2).toNat 15
      let jam : BitVec 17 := if (byteAt bs 3).getLsbD 0 = true then 64 else 0
      let turned : BitVec 17 :=
        match e.dispatch with
        | none => 128
        | some a => if used ≠ a.stacker then 32 else 0
      let e' := { e with stacker := some used, remarks := e.remarks ||| jam ||| turned }
      let u := ((s.queued r []).departed (e'.retired .exit) (e'.dispositionFor .exit)
        (older.map (fun q => { q with age := q.age + 1 }) ++ younger)).limitAsked
      (∀ q ∈ older, q.age + 1 < u.trays.inForce.ageLimit) → (∀ q ∈ younger, q.age < u.trays.inForce.ageLimit) →
      exec (.exitWrite r) s = .next u)

/-- O50. R83, R89, R90, R126, R132, R138: what an exit word brings about after its retirement. In DRAIN, the exit of the sole
entry ends the drain: after the limit check a close with reason DRAIN is asked, then STANDBY with parsers and zone work at
rest and a dirty staged set applied. With no tray limit, the entries that have come of age leave as LOST (counter 9), setting
PIECE_LOST, the others standing with their ages, one record each; a drain whose last entries leave so ends. -/
def Obligations.AgedEntriesLeaveAndDrainsEnd : Prop :=
  ∀ (s : State) (m : MemoryMap) (x : SourceTable) (j : Nat) (r : Request) (bs : List Byte) (older younger : List Entry)
    (e : Entry), s.setup.map = some m → s.setup.sources = some x → s.SlotRequest .write m.exit 8 j r →
    x.gate = r.source.toNat → writtenBytes r (reqLo r) 8 = some bs → half bs 0 % 64 = j → e.piece = half bs 0 →
    s.entries = older ++ e :: younger → s.pieces.Nodup → (s.tally.other = .free → s.NoTrayQueued) →
    let e' := e.takeExit (byteAt bs 2).toNat ((byteAt bs 3).getLsbD 0)
    let d := e'.dispositionFor .exit
    (s.mode = .drain → older = [] → younger = [] →
      exec (.exitWrite r) s =
        .next (((((s.queued r []).departed (e'.retired .exit) d []).limitAsked).closeAsked .drain).atRest)) ∧
    (s.mode ≠ .standby → s.trays.inForce.pieceLimit = 0 →
      let aged := older.map (fun q => { q with age := q.age + 1 }) ++ younger
      let old : Entry → Bool := fun q => decide (s.trays.inForce.ageLimit ≤ q.age)
      let n := aged.countP old
      ∃ t, exec (.exitWrite r) s = .next t ∧ t.entries = aged.filter (fun q => !old q) ∧
        t.tally.totals = ((s.tally.counted d.code).totals).set 9 (stepUpBy n s.tally.totals[9]) ∧
        t.report.seq = s.report.seq + 1 + BitVec.ofNat 32 n ∧ t.tally.opened = s.tally.opened ∧
        (t.flagSet .pieceLost = true ↔ s.flagSet .pieceLost = true ∨ 0 < n) ∧
        t.mode = (if s.mode = .drain ∧ t.entries = [] then .standby else s.mode) ∧
        (s.mode = .run ∨ t.entries ≠ [] → t.tally.counts =
          ((s.tally.counted d.code).counts).set 9 (stepUpBy n s.tally.counts[9]) ∧ t.trays = s.trays))

/-- O51. R91: the disposition of a retiring entry, row by row, with PRINT_UNCONFIRMED (remark 4) at row 7 when no print status
came. -/
def Obligations.DispositionFollowsItsRows : Prop :=
  ∀ e : Entry,
    e.dispositionFor .aborted = .aborted ∧ e.dispositionFor .lost = .lost ∧
    (e.disposition = some .cullLate → e.dispositionFor .exit = .cullLate) ∧
    (e.disposition = none →
      (e.dispatch = none → e.dispositionFor .exit = .cullFault) ∧
      (∀ a, e.dispatch = some a →
        (a.kind = .cullNone → e.dispositionFor .exit = .cullNone) ∧
        (a.kind = .cullAmbig → e.dispositionFor .exit = .cullAmbig) ∧
        (a.kind = .cullCorner → e.dispositionFor .exit = .cullCorner) ∧
        (a.kind = .cullFault → e.dispositionFor .exit = .cullFault) ∧
        (a.kind = .meter → e.dispositionFor .exit = .meter) ∧
        (a.kind = .stampHeld → e.dispositionFor .exit = .facedUncancelled) ∧
        (a.kind = .stampOk →
          (∀ p x y die w, e.print = some { piece := p, action := .print x y die } →
            e.printStatus = none ∨ e.printStatus = some .ok → e.decision.bind Decision.winner = some w →
            (w.cls = .ph → e.dispositionFor .exit = .facedPh) ∧ (w.cls = .col → e.dispositionFor .exit = .facedColour) ∧
            (w.cls ≠ .fl → ((e.retired .exit).hasRemark .printUnconfirmed = true ↔
              e.printStatus = none ∨ e.hasRemark .printUnconfirmed = true))) ∧
          (e.print = none ∨ (∃ p why, e.print = some { piece := p, action := .skip why }) ∨
            e.printStatus ∈ [some PrintStatus.misprint, some .headFault, some .inkOut] →
            e.dispositionFor .exit = .facedUncancelled))))

/-- O52. R118 to R122: a print status word. Unseen in STANDBY; refused with STRAY_WRITE (flag 13) from another source than the
printer, when not all enabled, for another slot, or with a result that is none of the four. Recorded in an entry with a
PRINT answer and no status: OK clears the misprint count, MISPRINT raises it and holds at 2, HEAD_FAULT and INK_OUT hold
(CANCEL_HELD, flag 9), each but OK with its remark. Elsewhere it is stray, but HEAD_FAULT and INK_OUT still hold. -/
def Obligations.PrintStatusWordIsRecordedOnce : Prop :=
  ∀ (s : State) (m : MemoryMap) (x : SourceTable) (j : Nat) (r : Request), s.setup.map = some m →
    s.setup.sources = some x → s.SlotRequest .write m.status 8 j r →
    let q := s.queued r []
    let held : State := { q with cancel := { s.cancel with held := true } }
    (s.mode = .standby → exec (.printStatusWrite r) s = .next q) ∧
    (s.mode ≠ .standby →
      (x.printer ≠ r.source.toNat ∨ writtenBytes r (reqLo r) 8 = none ∨
        (∃ bs, writtenBytes r (reqLo r) 8 = some bs ∧
          (half bs 0 % 64 ≠ j ∨ (byteAt bs 2).toNat = 0 ∨ 4 < (byteAt bs 2).toNat))) →
      exec (.printStatusWrite r) s = .next (q.flagged 13)) ∧
    (∀ bs, s.mode ≠ .standby → x.printer = r.source.toNat → writtenBytes r (reqLo r) 8 = some bs → half bs 0 % 64 = j →
      (∀ (older younger : List Entry) (e : Entry) (p x' y' die : Nat), s.entries = older ++ e :: younger →
        s.pieces.Nodup → e.piece = half bs 0 → e.print = some { piece := p, action := .print x' y' die } →
        e.printStatus = none →
        let entries : PrintStatus → BitVec 17 → List Entry := fun st k =>
          older ++ { e with printStatus := some st, remarks := e.remarks ||| k } :: younger
        (byteAt bs 2 = 1 → exec (.printStatusWrite r) s =
          .next { q with entries := entries .ok 0, cancel := { s.cancel with misprints := 0 } }) ∧
        (byteAt bs 2 = 2 → s.cancel.misprints = 0 → exec (.printStatusWrite r) s =
          .next { q with entries := entries .misprint 16384, cancel := { s.cancel with misprints := 1 } }) ∧
        (byteAt bs 2 = 2 → 1 ≤ s.cancel.misprints → exec (.printStatusWrite r) s =
          .next (({ q with
            entries := entries .misprint 16384
            cancel := { s.cancel with held := true, misprints := 2 } } : State).flagged 9)) ∧
        (byteAt bs 2 = 3 → exec (.printStatusWrite r) s =
          .next (({ held with entries := entries .headFault 32768 } : State).flagged 9)) ∧
        (byteAt bs 2 = 4 → exec (.printStatusWrite r) s =
          .next (({ held with entries := entries .inkOut 65536 } : State).flagged 9))) ∧
      ((∀ e ∈ s.entries, e.piece = half bs 0 →
          e.printStatus ≠ none ∨ ∀ p x' y' die, e.print ≠ some { piece := p, action := .print x' y' die }) →
        (byteAt bs 2 = 1 ∨ byteAt bs 2 = 2 → exec (.printStatusWrite r) s = .next (q.flagged 13)) ∧
        (byteAt bs 2 = 3 ∨ byteAt bs 2 = 4 → exec (.printStatusWrite r) s = .next ((held.flagged 9).flagged 13))))

/-- O53. R86, R93, R94, R111, R112, R118: requests that touch several slots of a window, or cover a slot only in part, and no
other window. Each slot touched is taken in ascending order by its own command, the whole of one slot before the next. A
WRITE's slot has the bytes the request enables in it, so that one covered in part is refused. A READ's slot is read in full,
and the fill-in plan has of each answered slot the bytes the request covers. An exit write whose earlier slot has ended a
drain sets STRAY_WRITE (flag 13) for the slots after it (log entry 7, DEDUCED). -/
def Obligations.RequestsAreTakenSlotBySlot : Prop :=
  ∀ (s : State) (m : MemoryMap) (x : SourceTable) (r : Request), s.setup.map = some m → s.setup.sources = some x →
    s.PlacementLaw → s.AcceptsAtOnce r → reqCrosses r = false → r.source ≠ 15 →
    let queued : State × FillPlan → State := fun p => p.1.queued r p.2
    (r.wellFormedAs .read = true →
      (reqTouches r m.dispatch 512 = true → reqTouches r m.print 1024 = false → reqTouches r m.live 256 = false →
        exec (.dispatchRead r) s =
          .next (queued (s.slotsTaken .dispatchRead 8 r (touchedSlots r m.dispatch 8 64)))) ∧
      (reqTouches r m.print 1024 = true → reqTouches r m.dispatch 512 = false → reqTouches r m.live 256 = false →
        exec (.printRead r) s = .next (queued (s.slotsTaken .printRead 16 r (touchedSlots r m.print 16 64))))) ∧
    (r.wellFormedAs .write = true → reqTouches r (s.setup.straps.toNat * 65536) 1024 = false →
      (reqTouches r m.status 512 = true → reqTouches r m.exit 512 = false →
        exec (.printStatusWrite r) s =
          .next (queued (s.slotsTaken .printStatusWrite 8 r (touchedSlots r m.status 8 64)))) ∧
      (reqTouches r m.exit 512 = true → reqTouches r m.status 512 = false →
        let slots := touchedSlots r m.exit 8 64
        let upTo : Nat → State × FillPlan := fun k => s.slotsTaken .exitWrite 8 r (slots.take k)
        (s.mode = .standby → exec (.exitWrite r) s = .next (s.queued r [])) ∧
        (s.mode = .run → exec (.exitWrite r) s = .next (queued (upTo slots.length))) ∧
        (s.mode = .drain → (∀ k < slots.length, (upTo k).1.mode = .drain) →
          exec (.exitWrite r) s = .next (queued (upTo slots.length))) ∧
        (∀ k < slots.length, s.mode = .drain → (upTo k).1.mode = .standby →
          exec (.exitWrite r) s = .next ((queued (upTo k)).flagged 13))))

/-- O54. Sections 10.3 and 10.5 to 10.8, R143, R144, R184, R187, R188: where the formats place their fields, each little-endian:
the line header as it is read, the dispatch word, the print record, the piece record, the tray record and the live window as
the part forms them, with 0 for what is absent; what of an entry a piece record carries; and the shared codes. -/
def Obligations.FormatsPlaceTheirFields : Prop :=
  (∀ bs : List Byte,
    let h := Header.ofBytes bs
    h.piece = half bs 0 ∧ h.index = half bs 2 % 1024 ∧ h.side = (if (byteAt bs 4).getLsbD 0 = true then .back else .face) ∧
      h.lead = (byteAt bs 4).getLsbD 1 ∧ h.trail = (byteAt bs 4).getLsbD 2 ∧ h.double = (byteAt bs 4).getLsbD 3 ∧
      h.samples = half bs 6 % 1024 ∧ h.top = half bs 8 % 1024 ∧ h.bottom = half bs 10 % 1024) ∧
  (∀ a : DispatchAnswer,
    let b := a.bytes
    b.length = 8 ∧ half b 0 = a.piece % 65536 ∧ (byteAt b 2).toNat = a.kind.code.val ∧ (byteAt b 3).toNat = a.turn.code ∧
      (byteAt b 4).toNat = a.stacker % 16 ∧ (byteAt b 5).getLsbD 0 = a.early ∧ (byteAt b 5).getLsbD 1 = a.clamped ∧
      (byteAt b 5).getLsbD 2 = a.late ∧ (byteAt b 5).toNat < 8 ∧ half b 6 = 0) ∧
  (∀ a : PrintAnswer,
    let b := a.bytes
    b.length = 16 ∧ half b 0 = a.piece % 65536 ∧
      (∀ x y die, a.action = .print x y die → (byteAt b 2).toNat = 1 ∧ (byteAt b 3).toNat = 0 ∧ half b 4 = x % 65536 ∧
        half b 6 = y % 65536 ∧ (byteAt b 8).toNat = die % 256) ∧
      (∀ why, a.action = .skip why → (byteAt b 2).toNat = 2 ∧ (byteAt b 3).toNat = why.code ∧ half b 4 = 0 ∧
        half b 6 = 0 ∧ (byteAt b 8).toNat = 0) ∧
      (∀ i, 9 ≤ i → byteAt b i = 0)) ∧
  (∀ p : PieceRecord,
    let b := PieceRecord.bytes p
    b.length = 32 ∧ word b 0 = p.seq.toNat ∧
    bits (word b 4) 0 16 = p.piece % 65536 ∧ bits (word b 4) 16 8 = p.trayNumber.toNat % 256 ∧
      bits (word b 4) 24 8 = p.generation % 256 ∧
    bits (word b 8) 0 4 = p.disposition.code.val ∧
    (p.decision = none → bits (word b 8) 4 5 = 0) ∧
    (∀ k o, p.decision = some (k, o) → bits (word b 8) 4 2 = k.code ∧ bits (word b 8) 6 3 = o.code) ∧
    (p.dispatch = none → bits (word b 8) 9 11 = 0) ∧
    (∀ k t st, p.dispatch = some (k, t, st) → bits (word b 8) 9 1 = 1 ∧ bits (word b 8) 10 3 = k.code.val ∧
      bits (word b 8) 13 3 = t.code ∧ bits (word b 8) 16 4 = st % 16) ∧
    (p.stacker = none → bits (word b 8) 20 5 = 0) ∧
    (∀ st, p.stacker = some st → bits (word b 8) 20 1 = 1 ∧ bits (word b 8) 21 4 = st % 16) ∧
    (p.winner = none → bits (word b 8) 25 6 = 0 ∧ word b 12 = 0 ∧ bits (word b 16) 0 19 = 0) ∧
    (∀ w, p.winner = some w → bits (word b 8) 25 1 = 1 ∧ bits (word b 8) 26 3 = w.corner.val ∧
      bits (word b 8) 29 2 = w.cls.code ∧ bits (word b 12) 0 16 = w.score % 65536 ∧
      bits (word b 12) 16 16 = p.overHits % 65536 ∧ bits (word b 16) 0 10 = w.xc % 1024 ∧
      bits (word b 16) 10 9 = w.yc % 512) ∧
    (p.position = none → bits (word b 8) 31 1 = 0 ∧ bits (word b 16) 19 10 = 0 ∧ bits (word b 20) 0 9 = 0) ∧
    (∀ x y, p.position = some (x, y) → bits (word b 8) 31 1 = 1 ∧ bits (word b 16) 19 10 = x % 1024 ∧
      bits (word b 20) 0 9 = y % 512) ∧
    (p.printStatus = none → bits (word b 16) 29 3 = 0) ∧
    (∀ st, p.printStatus = some st → bits (word b 16) 29 3 = st.code) ∧
    (p.print = none → bits (word b 20) 9 6 = 0) ∧
    (∀ x y die, p.print = some (.print x y die) → bits (word b 20) 9 2 = 1 ∧ bits (word b 20) 11 4 = 0) ∧
    (∀ why, p.print = some (.skip why) → bits (word b 20) 9 2 = 2 ∧ bits (word b 20) 11 4 = why.code) ∧
    bits (word b 20) 15 17 = p.remarks.toNat ∧
    (let side : SideRecord → Nat → Prop := fun q w => bits w 0 3 = q.state.code ∧ bits w 3 11 = q.n % 2048 ∧
        bits w 14 8 = min q.faulted 255 ∧ bits w 22 9 = q.maxExtent % 512 ∧ bits w 31 1 = 0
     side p.faceSide (word b 24) ∧ side p.backSide (word b 28))) ∧
  (∀ (e : Entry) (d : Disposition) (seq tray : Word32), e.record d seq tray =
    { seq := seq, piece := e.piece, trayNumber := tray, generation := e.generation, disposition := d
      decision := e.decision.map fun q => (q.kind, q.outcome)
      dispatch := e.dispatch.map fun a => (a.kind, a.turn, a.stacker)
      stacker := e.stacker
      winner := e.decision.bind Decision.winner
      overHits := match e.decision.bind Decision.winner with
        | some w => (e.zone w.corner w.cls).overs
        | none => 0
      position := e.decision.bind Decision.position
      print := e.print.map PrintAnswer.action
      printStatus := e.printStatus, faceSide := e.sides.face, backSide := e.sides.back, remarks := e.remarks }) ∧
  (∀ t : TrayRecord,
    let b := TrayRecord.bytes t
    b.length = 128 ∧ word b 0 = t.data.trayNumber.toNat ∧ (byteAt b 4).toNat = t.data.reason.code ∧
      (byteAt b 5).toNat = t.data.mark.code ∧
      (byteAt b 6).toNat = (if ∃ k : Fin 12, t.counts[k] = 4294967295 then 1 else 0) ∧ byteAt b 7 = 0 ∧
      word b 8 = t.data.recordSeq.toNat ∧ word b 12 = min ((t.counts.toList.take 11).sum) 4294967295 ∧
      (∀ k : Fin 12, word b (16 + 4 * k.val) = t.counts[k] % 4294967296) ∧ (∀ i, 64 ≤ i → byteAt b i = 0)) ∧
  (∀ s : State,
    let b := s.liveBytes
    let held := ((s.gens.older ++ [s.gens.newest]).map Generation.number).filter fun n =>
      s.entries.any fun e => e.running && (e.generation == n)
    let other : Nat := match s.tally.other with
      | .free => 0
      | .sealed _ _ => 2
      | .writing _ _ => 3
    let banks := (byteAt b 11).toNat
    bits (byteAt b 6).toNat 0 2 = held.length % 4 ∧ (byteAt b 6).getLsbD 2 = s.gens.dirty ∧
      (byteAt b 6).getLsbD 3 = s.trays.dirty ∧ (byteAt b 6).toNat < 16 ∧
    (byteAt b 7).toNat = s.gens.newest.number % 256 ∧
    (byteAt b 8).toNat = held.getD 0 0 % 256 ∧ (byteAt b 9).toNat = held.getD 1 0 % 256 ∧
    (byteAt b 10).getLsbD 0 = s.cancel.suspended ∧ (byteAt b 10).getLsbD 1 = s.cancel.held ∧
      bits (byteAt b 10).toNat 2 2 = s.cancel.misprints % 4 ∧ (byteAt b 10).toNat < 16 ∧
    (s.tally.active = .a → bits banks 0 2 = 1 ∧ bits banks 2 2 = other) ∧
    (s.tally.active = .b → bits banks 0 2 = other ∧ bits banks 2 2 = 1) ∧
    (s.tally.pending = none → banks < 16) ∧
    (∀ p, s.tally.pending = some p → bits banks 4 1 = 1 ∧ bits banks 5 2 = p.reason.code ∧
      bits banks 7 1 = (if p.merged = true then 1 else 0)) ∧
    word b 12 = s.tally.trayNumber.toNat ∧
    (∀ l : Lane, (byteAt b (16 + 2 * l.code)).toNat = (s.lane l).state.code ∧
      (byteAt b (17 + 2 * l.code)).toNat = (s.lane l).credits % 256) ∧
    word b 24 = s.tally.opened % 4294967296 ∧ word b 28 = s.report.seq.toNat ∧
    (∀ k : Fin 12, word b (32 + 4 * k.val) = s.tally.counts[k] % 4294967296 ∧
      word b (80 + 4 * k.val) = s.tally.totals[k] % 4294967296) ∧
    (∀ i, 128 ≤ i → byteAt b i = 0)) ∧
  ([Cls.ph, .col, .fl].map Cls.code = [0, 1, 2] ∧
    [Turn.none, .pass, .rotate, .flip, .flipRotate].map Turn.code = [0, 1, 2, 3, 4] ∧
    [Lane.img, .ctl, .blk, .rpt].map Lane.code = [0, 1, 2, 3] ∧
    [OutcomeKind.stampOk, .stampHeld, .meter, .cullNone, .cullAmbig, .cullCorner, .cullLate, .cullFault].map
      (fun k => k.code.val) = [0, 1, 2, 3, 4, 5, 6, 7] ∧
    [Outcome.stamp, .meter, .cullNone, .cullAmbig, .cullCorner, .cullFault].map Outcome.code = [0, 1, 2, 3, 4, 5] ∧
    [DecisionKind.early, .full, .fault].map DecisionKind.code = [1, 2, 3] ∧
    [Disposition.facedPh, .facedColour, .facedUncancelled, .meter, .cullNone, .cullAmbig, .cullCorner, .cullLate,
      .cullFault, .lost, .aborted].map (fun d => d.code.val) = [0, 1, 2, 3, 4, 5, 6, 7, 8, 9, 10] ∧
    [SideState.notSeen, .opened, .closed, .missing, .truncated, .overlong].map SideState.code = [0, 1, 2, 3, 4, 5] ∧
    [SkipReason.notDispatched, .late, .culled, .notStamp, .routedHeld, .hold, .suspend, .band].map SkipReason.code =
      [1, 2, 3, 4, 5, 6, 7, 8] ∧
    [PrintStatus.ok, .misprint, .headFault, .inkOut].map PrintStatus.code = [1, 2, 3, 4] ∧
    [CloseReason.tclose, .limit, .drain, .abort].map CloseReason.code = [0, 1, 2, 3] ∧
    [SealMark.none, .pending, .merged].map SealMark.code = [0, 1, 2] ∧
    [Mode.standby, .run, .drain].map Mode.code = [0, 1, 2] ∧
    [RefusalReason.none, .badKind, .range, .wrongMode, .once, .overlap].map RefusalReason.code = [0, 1, 2, 3, 4, 5] ∧
    [RunReason.none, .noMap, .noSources, .laneNotUp].map RunReason.code = [0, 1, 2, 3] ∧
    [LaneState.down, .opening, .up, .closing].map LaneState.code = [0, 1, 2, 3] ∧
    [Remark.early, .earlyConflict, .clamped, .misrouted, .printUnconfirmed, .misstack, .jam, .earlyExit, .double,
      .truncated, .overlong, .sideMissing, .lineFaults, .faultAfterDispatch, .misprint, .headFault, .inkOut].map
      Remark.index = List.range 17 ∧
    [Flag.setupRefused, .setupForeign, .onceRepeat, .runRefused, .lineFault, .tableForced, .pieceLost, .lateDispatch,
      .bandSkip, .cancelHeld, .recordDrop, .reportFault, .laneDrop, .strayWrite].map Flag.index = List.range 14)

/-! ## Rules of the detectors and the decision unit -/

/-- O55. R23, R25 to R27, R30, R31: the corrected value of a raw channel value; how a comparison judges one, strictly; which
samples hit a class, and which of the hits are over-hits; the two bands of a line; and the tallies a sample arrival leaves,
a set that belongs to another line being zeroed first. A record whose INSIDE or OUTSIDE comparison has, after the clamps of
R154, lo above hi gives no comparison (its refusal is stated with the record's other ranges). -/
def Obligations.SamplesAreCorrectedJudgedAndTallied : Prop :=
  (∀ (q : Comparison) (c : Nat),
    (q.mode = .above → (q.judge c = .plain ↔ q.hi < c) ∧ (q.judge c = .fails ↔ c ≤ q.hi)) ∧
    (q.mode = .below → (q.judge c = .plain ↔ c < q.lo) ∧ (q.judge c = .fails ↔ q.lo ≤ c)) ∧
    (q.mode = .inside → (q.judge c = .plain ↔ q.lo < c ∧ c < q.hi) ∧ (q.judge c = .fails ↔ c ≤ q.lo ∨ q.hi ≤ c)) ∧
    (q.mode = .outside → q.lo ≤ q.hi → (q.judge c = .underPass ↔ c < q.lo) ∧ (q.judge c = .overPass ↔ q.hi < c) ∧
      (q.judge c = .fails ↔ q.lo ≤ c ∧ c ≤ q.hi)) ∧
    (q.lo = q.hi → q.mode = .inside → q.judge c = .fails) ∧
    (q.lo = q.hi → q.mode = .outside → (q.judge c = .fails ↔ c = q.lo))) ∧
  (∀ m : ComparisonRecord, m.mode = 2 ∨ m.mode = 3 → min m.hi.toNat 1023 < min m.lo.toNat 1023 → m.comparison = none) ∧
  (∀ (q : ChannelCorrection) (raw : Nat),
    q.correct raw = min 1023 ((raw - q.black) * q.gain / 256) ∧ q.correct raw ≤ 1023 ∧
      (q.gain = 0 → q.correct raw = 0) ∧ (raw ≤ q.black → q.correct raw = 0) ∧
      (q.black = 0 → q.gain = 256 → raw ≤ 1023 → q.correct raw = raw)) ∧
  (∀ (q : Correction) (w : Nat), q.sample w =
    { v := q.v.correct (w % 1024), r := q.r.correct (w / 1024 % 1024), l := q.l.correct (w / 1048576 % 1024) }) ∧
  (∀ zh t u y : Nat, 1 ≤ zh → t ≤ u →
    (inBand zh t u y .top = true ↔ (t : Int) ≤ y ∧ (y : Int) ≤ min (u : Int) (t + zh - 1)) ∧
    (inBand zh t u y .bottom = true ↔ max (t : Int) (u - zh + 1) ≤ y ∧ (y : Int) ≤ u)) ∧
  (∀ (t : ClassTest) (c : Sample),
    (t.hit c = true ↔ t.primary.judge (c.get t.primary.channel) ≠ .fails ∧
      ∀ q, t.secondary = some q → q.judge (c.get q.channel) ≠ .fails) ∧
    (t.overHit c = true ↔ t.hit c = true ∧ t.primary.judge (c.get t.primary.channel) = .overPass)) ∧
  (∀ (st : Settings) (piece x t u y : Nat) (c : Sample) (z : ZoneWork) (ed : Edge) (k : Cls),
    let z' := z.takeSample st piece x t u y c
    let q : Tally := if z.line = some (piece, x) then (z.tallies.get ed).get k else { h := 0, overs := 0, ysum := 0 }
    z'.line = some (piece, x) ∧ z'.state = z.state ∧ z'.owner = z.owner ∧ z'.ring = z.ring ∧
      (inBand st.geometry.zh t u y ed = true → (st.tests.get k).hit c = true →
        (z'.tallies.get ed).get k =
          { h := q.h + 1, overs := if (st.tests.get k).overHit c = true then q.overs + 1 else q.overs
            ysum := q.ysum + (y - t) }) ∧
      (inBand st.geometry.zh t u y ed = false ∨ (st.tests.get k).hit c = false → (z'.tallies.get ed).get k = q))

/-- O56. R34, R38 to R41: the result of a zone record built from lines that each hold a hit: presence and score from the
counts, and a centroid and an extent that lie between the bounds of the lines: x_c between their least and greatest x, y_c
between the least and greatest y_rel of their hits, e between their least and greatest extent. -/
def Obligations.ZoneResultsStayWithinTheirLines : Prop :=
  ∀ (t : ClassTest) (lines : List (Nat × Nat × Tally)) (xLo xHi yLo yHi eLo eHi : Nat), lines ≠ [] →
    (∀ q ∈ lines, xLo ≤ q.1 ∧ q.1 ≤ xHi ∧ eLo ≤ q.2.1 ∧ q.2.1 ≤ eHi ∧ 1 ≤ q.2.2.h ∧
      yLo * q.2.2.h ≤ q.2.2.ysum ∧ q.2.2.ysum ≤ yHi * q.2.2.h) →
    let z := (lines.foldl (fun z q => z.addLine q.1 q.2.1 q.2.2) ZoneRecord.empty).complete t
    let hits := (lines.map fun q => q.2.2.h).sum
    z.done = true ∧ z.lines = lines.length ∧ z.hits = hits ∧ z.overs = (lines.map fun q => q.2.2.overs).sum ∧
      (z.present = true ↔ t.minLines ≤ lines.length ∧ t.minHits ≤ hits) ∧
      z.score = min 65535 (hits * t.weight / 16) ∧
      z.xc = (2 * (lines.map fun q => q.1 * q.2.2.h).sum + hits) / (2 * hits) ∧
      z.yc = (2 * (lines.map fun q => q.2.2.ysum).sum + hits) / (2 * hits) ∧
      z.e = (2 * (lines.map fun q => q.2.1).sum + lines.length) / (2 * lines.length) ∧
      xLo ≤ z.xc ∧ z.xc ≤ xHi ∧ yLo ≤ z.yc ∧ z.yc ≤ yHi ∧ eLo ≤ z.e ∧ z.e ≤ eHi

/-- O57. R49 to R53: the candidate list holds each DONE and present record once; it is ordered by rank, then score, then
corner; and the verdict of a full decision is read from the ordered list. -/
def Obligations.FullDecisionRanksAndReads : Prop :=
  (∀ (st : Settings) (ts : TraySet) (e : Entry),
    e.verdict st ts = verdictOf st.decision ts.facing (rankCandidates st.decision.ranks e.candidates)) ∧
  (∀ (e : Entry) (c : Candidate), c ∈ e.candidates ↔
    c.zone = e.zone c.corner c.cls ∧ c.zone.done = true ∧ c.zone.present = true) ∧
  (∀ e : Entry, e.candidates.Nodup) ∧
  (∀ (ranks : PerClass Nat) (cs : List Candidate), (rankCandidates ranks cs).Perm cs ∧
    (rankCandidates ranks cs).Pairwise fun a b =>
      ranks.get a.cls < ranks.get b.cls ∨ (ranks.get a.cls = ranks.get b.cls ∧
        (b.zone.score < a.zone.score ∨ (a.zone.score = b.zone.score ∧ a.corner ≤ b.corner)))) ∧
  (∀ (ds : DecisionSettings) (facing : Vector Action 8),
    verdictOf ds facing [] = { outcome := .cullNone, turn := .none, winner := none }) ∧
  (∀ (ds : DecisionSettings) (facing : Vector Action 8) (w : Candidate) (rest : List Candidate),
    let rival : Candidate → Prop := fun c => c.cls = w.cls ∧ facing[c.corner] ≠ facing[w.corner]
    (facing[w.corner] = .cull →
      verdictOf ds facing (w :: rest) = { outcome := .cullCorner, turn := .none, winner := some w.winner }) ∧
    (∀ pre r post, facing[w.corner] ≠ .cull → rest = pre ++ r :: post → (∀ c ∈ pre, ¬ rival c) → rival r →
      w.zone.score * ds.margin ≤ r.zone.score * 100 →
      verdictOf ds facing (w :: rest) = { outcome := .cullAmbig, turn := .none, winner := some w.winner }) ∧
    (facing[w.corner] ≠ .cull →
      ((∀ c ∈ rest, ¬ rival c) ∨ (∃ pre r post, rest = pre ++ r :: post ∧ (∀ c ∈ pre, ¬ rival c) ∧ rival r ∧
        r.zone.score * 100 < w.zone.score * ds.margin)) →
      verdictOf ds facing (w :: rest) =
        { outcome := if w.cls = .fl then .meter else .stamp, turn := facing[w.corner].turn, winner := some w.winner }))

/-- O58. R54, R55, R61 to R63: the decisions written in an entry. At a side-closed notice that finds both sides CLOSED and the
inspection running, the full decision is written where none stands, with CLAMPED (remark 2) and BAND_SKIP (flag 8), and
compared with one that stands, EARLY_CONFLICT (remark 1) marking another outcome or turn; the inspection then finishes. At a
leading-complete notice with the inspection running, no decision, no dispatch answer and E not 0, the early decision of the
rank-1 class is written from the LEAD corner that qualifies, with EARLY (remark 0). Any other notice changes nothing. -/
def Obligations.DecisionsAreWrittenInTheEntry : Prop :=
  ∀ (s : State) (piece : Nat) (e : Entry), s.pieces.Nodup → s.entry? piece = some e →
    let st := s.settingsOf e.generation
    let ts := s.trays.inForce
    let v := e.verdict st ts
    let full := formDecision st ts .full
      (match v.winner with
        | some w => (e.sides.get (sideOfCorner w.corner)).n
        | none => 0) v
    let due := e.running = true ∧ e.sides.face.state = .closed ∧ e.sides.back.state = .closed
    (¬ due → s.closedNotice piece = s) ∧
    (due → s.closedNotice piece =
      if e.decision = none ∧ full.bandSkip = true then (s.finishedWith (e.fullTaken v full)).flagged 8
      else s.finishedWith (e.fullTaken v full)) ∧
    (∀ (sd : Side) (k : Cls), st.decision.ranks.get k = 1 → (∀ k', st.decision.ranks.get k' = 1 → k' = k) →
      let checked := e.running = true ∧ e.decision = none ∧ e.dispatch = none ∧ (st.tests.get k).earlyHits ≠ 0
      (¬ checked ∨ (∀ c, ¬ e.EarlyFrom st ts.facing k sd c) → s.leadingNotice sd piece = s) ∧
      (∀ c, checked → e.EarlyFrom st ts.facing k sd c →
        let early := formDecision st ts .early (e.sides.get sd).n
          { outcome := if k = .fl then .meter else .stamp, turn := ts.facing[c].turn, winner := some (e.winnerAt c k) }
        let t := s.withPiece piece fun _ => { e with
          decision := some early.decision, remarks := e.remarks ||| (if early.clamped = true then 5#17 else 1#17) }
        s.leadingNotice sd piece = if early.bandSkip = true then t.flagged 8 else t))

/-- O59. R56 to R60: the post-turn position and the print plan of a decision. STAMP, axis by axis: inside the band the value
is kept, outside by up to the tolerance it is clamped to the nearer edge, and beyond it the plan is SKIP BAND with the
position unclamped; a PRINT plan's position lies in the band, and its die is that of the class. METER: the position is not
tested against the band, and the plan is SKIP NOT_STAMP. In both, a y' that would fall below 0 is held there, with CLAMPED.
CULL: no position and no plan. -/
def Obligations.PositionsAndPlansFollowTheOutcome : Prop :=
  (∀ (st : Settings) (ts : TraySet) (kind : DecisionKind) (n : Nat) (v : Verdict) (w : Winner),
    v.winner = some w →
    st.decision.xMin ≤ st.decision.xMax → st.decision.yMin ≤ st.decision.yMax →
    let x := if v.turn = .rotate ∨ v.turn = .flipRotate then n - 1 - w.xc else w.xc
    let y := if v.turn = .flip ∨ v.turn = .rotate then w.e - w.yc else w.yc
    let lowHeld := (v.turn = .flip ∨ v.turn = .rotate) ∧ w.e < w.yc
    let far : Nat → Nat → Nat → Prop := fun lo hi a => a + st.decision.tolerance < lo ∨ hi + st.decision.tolerance < a
    let beyond := far st.decision.xMin st.decision.xMax x ∨ far st.decision.yMin st.decision.yMax y
    let inX := max st.decision.xMin (min x st.decision.xMax)
    let inY := max st.decision.yMin (min y st.decision.yMax)
    let f := formDecision st ts kind n v
    (v.outcome = .stamp → beyond → f.decision =
        { kind := kind, outcome := .stamp, turn := v.turn, winner := some w, position := some (x, y)
          plan := some .skipBand } ∧ f.bandSkip = true ∧ (f.clamped = true ↔ lowHeld)) ∧
    (v.outcome = .stamp → ¬ beyond → f.decision =
        { kind := kind, outcome := .stamp, turn := v.turn, winner := some w, position := some (inX, inY)
          plan := some (.print (ts.die w.cls)) } ∧ f.bandSkip = false ∧
        (f.clamped = true ↔ lowHeld ∨ inX ≠ x ∨ inY ≠ y) ∧
        st.decision.xMin ≤ inX ∧ inX ≤ st.decision.xMax ∧ st.decision.yMin ≤ inY ∧ inY ≤ st.decision.yMax) ∧
    (v.outcome = .meter → f.decision =
        { kind := kind, outcome := .meter, turn := v.turn, winner := some w, position := some (x, y)
          plan := some .skipNotStamp } ∧ f.bandSkip = false ∧ (f.clamped = true ↔ lowHeld))) ∧
  (∀ (st : Settings) (ts : TraySet) (kind : DecisionKind) (n : Nat) (v : Verdict),
    v.outcome ∈ [Outcome.cullNone, .cullAmbig, .cullCorner, .cullFault] →
    formDecision st ts kind n v =
      { decision :=
          { kind := kind, outcome := v.outcome, turn := v.turn, winner := v.winner, position := none, plan := none }
        clamped := false, bandSkip := false }) ∧
  (∀ ts : TraySet, ts.die .ph = ts.diePh ∧ ts.die .col = ts.dieCol)

/-- O60. R189, section 10.9: a received message is read back as the command whose word it is, whatever its lane and count;
bits 15 to 11 are ignored, and types 0, 6 and 7, OPEN and CLOSE are no command. A 16-bit word is read as a received message
and waits as its command at the front of the queue; words of other lengths spell none (log entry 3, DESIGN CHOICE). -/
def Obligations.LaneMessagesDecodeToTheirCommands : Prop :=
  (∀ (c : Instr) (w : BitVec 16), encodeMessage c = some w → decodeMessage w = some c) ∧
  (∀ w : BitVec 16, decodeMessage w = decodeMessage (w &&& 0x07ff#16)) ∧
  (∀ w : BitVec 16, w.toNat % 8 ∈ [0, 1, 2, 6, 7] → decodeMessage w = none) ∧
  (∀ (l : Lane) (n : BitVec 6), encodeMessage (.grant l n) = some (BitVec.ofNat 16 (3 + 8 * l.code + 32 * n.toNat)) ∧
    encodeMessage (.credit l n) = some (BitVec.ofNat 16 (4 + 8 * l.code + 32 * n.toNat)) ∧
    encodeMessage (.drop l) = some (BitVec.ofNat 16 (5 + 8 * l.code))) ∧
  (∀ w : BitVec 16, decodeTableWord 16 w.toNat = decodeMessage w) ∧
  (∀ nbits w : Nat, nbits ≠ 16 → decodeTableWord nbits w = none) ∧
  (∀ (s : State) (w : BitVec 16) (c : Instr), decodeMessage w = some c →
    s.withFetchWord 16 w.toNat = { s with pending := c :: s.pending }) ∧
  (∀ (s : State) (nbits w : Nat), decodeTableWord nbits w = none → s.withFetchWord nbits w = s)
end

