-- ==== Sys2Proof/Laws/State.lean ====
section
/-! SUPPORT. One lemma for each field of the state and each named update that leaves it alone. -/

namespace Sys2Proof.Machine

/-! ### raise -/

@[simp] theorem State.raise_pending (s : State) (f : Flag) : (s.raise f).pending = s.pending := rfl
@[simp] theorem State.raise_setup (s : State) (f : Flag) : (s.raise f).setup = s.setup := rfl
@[simp] theorem State.raise_gens (s : State) (f : Flag) : (s.raise f).gens = s.gens := rfl
@[simp] theorem State.raise_trays (s : State) (f : Flag) : (s.raise f).trays = s.trays := rfl
@[simp] theorem State.raise_mode (s : State) (f : Flag) : (s.raise f).mode = s.mode := rfl
@[simp] theorem State.raise_entries (s : State) (f : Flag) : (s.raise f).entries = s.entries := rfl
@[simp] theorem State.raise_lastUninspected (s : State) (f : Flag) : (s.raise f).lastUninspected = s.lastUninspected :=
  rfl
@[simp] theorem State.raise_parsers (s : State) (f : Flag) : (s.raise f).parsers = s.parsers := rfl
@[simp] theorem State.raise_zones (s : State) (f : Flag) : (s.raise f).zones = s.zones := rfl
@[simp] theorem State.raise_cancel (s : State) (f : Flag) : (s.raise f).cancel = s.cancel := rfl
@[simp] theorem State.raise_tally (s : State) (f : Flag) : (s.raise f).tally = s.tally := rfl
@[simp] theorem State.raise_report (s : State) (f : Flag) : (s.raise f).report = s.report := rfl
@[simp] theorem State.raise_path (s : State) (f : Flag) : (s.raise f).path = s.path := rfl
@[simp] theorem State.raise_freeCount (s : State) (f : Flag) : (s.raise f).freeCount = s.freeCount := rfl

/-! ### raiseIf -/

@[simp] theorem State.raiseIf_pending (s : State) (b : Bool) (f : Flag) : (s.raiseIf b f).pending = s.pending :=
  by cases b <;> rfl
@[simp] theorem State.raiseIf_setup (s : State) (b : Bool) (f : Flag) : (s.raiseIf b f).setup = s.setup :=
  by cases b <;> rfl
@[simp] theorem State.raiseIf_gens (s : State) (b : Bool) (f : Flag) : (s.raiseIf b f).gens = s.gens :=
  by cases b <;> rfl
@[simp] theorem State.raiseIf_trays (s : State) (b : Bool) (f : Flag) : (s.raiseIf b f).trays = s.trays :=
  by cases b <;> rfl
@[simp] theorem State.raiseIf_mode (s : State) (b : Bool) (f : Flag) : (s.raiseIf b f).mode = s.mode :=
  by cases b <;> rfl
@[simp] theorem State.raiseIf_entries (s : State) (b : Bool) (f : Flag) : (s.raiseIf b f).entries = s.entries :=
  by cases b <;> rfl
@[simp] theorem State.raiseIf_lastUninspected (s : State) (b : Bool) (f : Flag) : (s.raiseIf b f).lastUninspected = s.lastUninspected :=
  by cases b <;> rfl
@[simp] theorem State.raiseIf_parsers (s : State) (b : Bool) (f : Flag) : (s.raiseIf b f).parsers = s.parsers :=
  by cases b <;> rfl
@[simp] theorem State.raiseIf_zones (s : State) (b : Bool) (f : Flag) : (s.raiseIf b f).zones = s.zones :=
  by cases b <;> rfl
@[simp] theorem State.raiseIf_cancel (s : State) (b : Bool) (f : Flag) : (s.raiseIf b f).cancel = s.cancel :=
  by cases b <;> rfl
@[simp] theorem State.raiseIf_tally (s : State) (b : Bool) (f : Flag) : (s.raiseIf b f).tally = s.tally :=
  by cases b <;> rfl
@[simp] theorem State.raiseIf_report (s : State) (b : Bool) (f : Flag) : (s.raiseIf b f).report = s.report :=
  by cases b <;> rfl
@[simp] theorem State.raiseIf_path (s : State) (b : Bool) (f : Flag) : (s.raiseIf b f).path = s.path :=
  by cases b <;> rfl
@[simp] theorem State.raiseIf_freeCount (s : State) (b : Bool) (f : Flag) : (s.raiseIf b f).freeCount = s.freeCount :=
  by cases b <;> rfl

/-! ### refuse -/

@[simp] theorem State.refuse_pending (s : State) (r : RefusalReason) : (s.refuse r).pending = s.pending :=
  by cases r <;> rfl
@[simp] theorem State.refuse_setup (s : State) (r : RefusalReason) : (s.refuse r).setup = s.setup :=
  by cases r <;> rfl
@[simp] theorem State.refuse_gens (s : State) (r : RefusalReason) : (s.refuse r).gens = s.gens := by cases r <;> rfl
@[simp] theorem State.refuse_trays (s : State) (r : RefusalReason) : (s.refuse r).trays = s.trays :=
  by cases r <;> rfl
@[simp] theorem State.refuse_mode (s : State) (r : RefusalReason) : (s.refuse r).mode = s.mode := by cases r <;> rfl
@[simp] theorem State.refuse_entries (s : State) (r : RefusalReason) : (s.refuse r).entries = s.entries :=
  by cases r <;> rfl
@[simp] theorem State.refuse_lastUninspected (s : State) (r : RefusalReason) : (s.refuse r).lastUninspected = s.lastUninspected :=
  by cases r <;> rfl
@[simp] theorem State.refuse_parsers (s : State) (r : RefusalReason) : (s.refuse r).parsers = s.parsers :=
  by cases r <;> rfl
@[simp] theorem State.refuse_zones (s : State) (r : RefusalReason) : (s.refuse r).zones = s.zones :=
  by cases r <;> rfl
@[simp] theorem State.refuse_cancel (s : State) (r : RefusalReason) : (s.refuse r).cancel = s.cancel :=
  by cases r <;> rfl
@[simp] theorem State.refuse_tally (s : State) (r : RefusalReason) : (s.refuse r).tally = s.tally :=
  by cases r <;> rfl
@[simp] theorem State.refuse_report (s : State) (r : RefusalReason) : (s.refuse r).report = s.report :=
  by cases r <;> rfl
@[simp] theorem State.refuse_path (s : State) (r : RefusalReason) : (s.refuse r).path = s.path := by cases r <;> rfl
@[simp] theorem State.refuse_freeCount (s : State) (r : RefusalReason) : (s.refuse r).freeCount = s.freeCount :=
  by cases r <;> rfl

/-! ### modifyEntry -/

@[simp] theorem State.modifyEntry_pending (s : State) (p : Nat) (f : Entry → Entry) : (s.modifyEntry p f).pending = s.pending :=
  rfl
@[simp] theorem State.modifyEntry_setup (s : State) (p : Nat) (f : Entry → Entry) : (s.modifyEntry p f).setup = s.setup :=
  rfl
@[simp] theorem State.modifyEntry_status (s : State) (p : Nat) (f : Entry → Entry) : (s.modifyEntry p f).status = s.status :=
  rfl
@[simp] theorem State.modifyEntry_gens (s : State) (p : Nat) (f : Entry → Entry) : (s.modifyEntry p f).gens = s.gens :=
  rfl
@[simp] theorem State.modifyEntry_trays (s : State) (p : Nat) (f : Entry → Entry) : (s.modifyEntry p f).trays = s.trays :=
  rfl
@[simp] theorem State.modifyEntry_mode (s : State) (p : Nat) (f : Entry → Entry) : (s.modifyEntry p f).mode = s.mode :=
  rfl
@[simp] theorem State.modifyEntry_lastUninspected (s : State) (p : Nat) (f : Entry → Entry) : (s.modifyEntry p f).lastUninspected = s.lastUninspected :=
  rfl
@[simp] theorem State.modifyEntry_parsers (s : State) (p : Nat) (f : Entry → Entry) : (s.modifyEntry p f).parsers = s.parsers :=
  rfl
@[simp] theorem State.modifyEntry_zones (s : State) (p : Nat) (f : Entry → Entry) : (s.modifyEntry p f).zones = s.zones :=
  rfl
@[simp] theorem State.modifyEntry_cancel (s : State) (p : Nat) (f : Entry → Entry) : (s.modifyEntry p f).cancel = s.cancel :=
  rfl
@[simp] theorem State.modifyEntry_tally (s : State) (p : Nat) (f : Entry → Entry) : (s.modifyEntry p f).tally = s.tally :=
  rfl
@[simp] theorem State.modifyEntry_report (s : State) (p : Nat) (f : Entry → Entry) : (s.modifyEntry p f).report = s.report :=
  rfl
@[simp] theorem State.modifyEntry_path (s : State) (p : Nat) (f : Entry → Entry) : (s.modifyEntry p f).path = s.path :=
  rfl
@[simp] theorem State.modifyEntry_freeCount (s : State) (p : Nat) (f : Entry → Entry) : (s.modifyEntry p f).freeCount = s.freeCount :=
  rfl

/-! ### setParser -/

@[simp] theorem State.setParser_pending (s : State) (sd : Side) (p : Parser) : (s.setParser sd p).pending = s.pending :=
  rfl
@[simp] theorem State.setParser_setup (s : State) (sd : Side) (p : Parser) : (s.setParser sd p).setup = s.setup := rfl
@[simp] theorem State.setParser_status (s : State) (sd : Side) (p : Parser) : (s.setParser sd p).status = s.status :=
  rfl
@[simp] theorem State.setParser_gens (s : State) (sd : Side) (p : Parser) : (s.setParser sd p).gens = s.gens := rfl
@[simp] theorem State.setParser_trays (s : State) (sd : Side) (p : Parser) : (s.setParser sd p).trays = s.trays := rfl
@[simp] theorem State.setParser_mode (s : State) (sd : Side) (p : Parser) : (s.setParser sd p).mode = s.mode := rfl
@[simp] theorem State.setParser_entries (s : State) (sd : Side) (p : Parser) : (s.setParser sd p).entries = s.entries :=
  rfl
@[simp] theorem State.setParser_lastUninspected (s : State) (sd : Side) (p : Parser) : (s.setParser sd p).lastUninspected = s.lastUninspected :=
  rfl
@[simp] theorem State.setParser_zones (s : State) (sd : Side) (p : Parser) : (s.setParser sd p).zones = s.zones := rfl
@[simp] theorem State.setParser_cancel (s : State) (sd : Side) (p : Parser) : (s.setParser sd p).cancel = s.cancel :=
  rfl
@[simp] theorem State.setParser_tally (s : State) (sd : Side) (p : Parser) : (s.setParser sd p).tally = s.tally := rfl
@[simp] theorem State.setParser_report (s : State) (sd : Side) (p : Parser) : (s.setParser sd p).report = s.report :=
  rfl
@[simp] theorem State.setParser_path (s : State) (sd : Side) (p : Parser) : (s.setParser sd p).path = s.path := rfl
@[simp] theorem State.setParser_freeCount (s : State) (sd : Side) (p : Parser) : (s.setParser sd p).freeCount = s.freeCount :=
  rfl

/-! ### setZone -/

@[simp] theorem State.setZone_pending (s : State) (sd : Side) (z : ZoneWork) : (s.setZone sd z).pending = s.pending :=
  rfl
@[simp] theorem State.setZone_setup (s : State) (sd : Side) (z : ZoneWork) : (s.setZone sd z).setup = s.setup := rfl
@[simp] theorem State.setZone_status (s : State) (sd : Side) (z : ZoneWork) : (s.setZone sd z).status = s.status :=
  rfl
@[simp] theorem State.setZone_gens (s : State) (sd : Side) (z : ZoneWork) : (s.setZone sd z).gens = s.gens := rfl
@[simp] theorem State.setZone_trays (s : State) (sd : Side) (z : ZoneWork) : (s.setZone sd z).trays = s.trays := rfl
@[simp] theorem State.setZone_mode (s : State) (sd : Side) (z : ZoneWork) : (s.setZone sd z).mode = s.mode := rfl
@[simp] theorem State.setZone_entries (s : State) (sd : Side) (z : ZoneWork) : (s.setZone sd z).entries = s.entries :=
  rfl
@[simp] theorem State.setZone_lastUninspected (s : State) (sd : Side) (z : ZoneWork) : (s.setZone sd z).lastUninspected = s.lastUninspected :=
  rfl
@[simp] theorem State.setZone_parsers (s : State) (sd : Side) (z : ZoneWork) : (s.setZone sd z).parsers = s.parsers :=
  rfl
@[simp] theorem State.setZone_cancel (s : State) (sd : Side) (z : ZoneWork) : (s.setZone sd z).cancel = s.cancel :=
  rfl
@[simp] theorem State.setZone_tally (s : State) (sd : Side) (z : ZoneWork) : (s.setZone sd z).tally = s.tally := rfl
@[simp] theorem State.setZone_report (s : State) (sd : Side) (z : ZoneWork) : (s.setZone sd z).report = s.report :=
  rfl
@[simp] theorem State.setZone_path (s : State) (sd : Side) (z : ZoneWork) : (s.setZone sd z).path = s.path := rfl
@[simp] theorem State.setZone_freeCount (s : State) (sd : Side) (z : ZoneWork) : (s.setZone sd z).freeCount = s.freeCount :=
  rfl

/-! ### releaseGenerations -/

@[simp] theorem State.releaseGenerations_pending (s : State) : (s.releaseGenerations).pending = s.pending := rfl
@[simp] theorem State.releaseGenerations_setup (s : State) : (s.releaseGenerations).setup = s.setup := rfl
@[simp] theorem State.releaseGenerations_status (s : State) : (s.releaseGenerations).status = s.status := rfl
@[simp] theorem State.releaseGenerations_trays (s : State) : (s.releaseGenerations).trays = s.trays := rfl
@[simp] theorem State.releaseGenerations_mode (s : State) : (s.releaseGenerations).mode = s.mode := rfl
@[simp] theorem State.releaseGenerations_entries (s : State) : (s.releaseGenerations).entries = s.entries := rfl
@[simp] theorem State.releaseGenerations_lastUninspected (s : State) : (s.releaseGenerations).lastUninspected = s.lastUninspected :=
  rfl
@[simp] theorem State.releaseGenerations_parsers (s : State) : (s.releaseGenerations).parsers = s.parsers := rfl
@[simp] theorem State.releaseGenerations_zones (s : State) : (s.releaseGenerations).zones = s.zones := rfl
@[simp] theorem State.releaseGenerations_cancel (s : State) : (s.releaseGenerations).cancel = s.cancel := rfl
@[simp] theorem State.releaseGenerations_tally (s : State) : (s.releaseGenerations).tally = s.tally := rfl
@[simp] theorem State.releaseGenerations_report (s : State) : (s.releaseGenerations).report = s.report := rfl
@[simp] theorem State.releaseGenerations_path (s : State) : (s.releaseGenerations).path = s.path := rfl
@[simp] theorem State.releaseGenerations_freeCount (s : State) : (s.releaseGenerations).freeCount = s.freeCount := rfl

/-! ### applyStaged -/

@[simp] theorem State.applyStaged_pending (s : State) : (s.applyStaged).pending = s.pending := rfl
@[simp] theorem State.applyStaged_setup (s : State) : (s.applyStaged).setup = s.setup := rfl
@[simp] theorem State.applyStaged_status (s : State) : (s.applyStaged).status = s.status := rfl
@[simp] theorem State.applyStaged_trays (s : State) : (s.applyStaged).trays = s.trays := rfl
@[simp] theorem State.applyStaged_mode (s : State) : (s.applyStaged).mode = s.mode := rfl
@[simp] theorem State.applyStaged_entries (s : State) : (s.applyStaged).entries = s.entries := rfl
@[simp] theorem State.applyStaged_lastUninspected (s : State) : (s.applyStaged).lastUninspected = s.lastUninspected :=
  rfl
@[simp] theorem State.applyStaged_parsers (s : State) : (s.applyStaged).parsers = s.parsers := rfl
@[simp] theorem State.applyStaged_zones (s : State) : (s.applyStaged).zones = s.zones := rfl
@[simp] theorem State.applyStaged_cancel (s : State) : (s.applyStaged).cancel = s.cancel := rfl
@[simp] theorem State.applyStaged_tally (s : State) : (s.applyStaged).tally = s.tally := rfl
@[simp] theorem State.applyStaged_report (s : State) : (s.applyStaged).report = s.report := rfl
@[simp] theorem State.applyStaged_path (s : State) : (s.applyStaged).path = s.path := rfl
@[simp] theorem State.applyStaged_freeCount (s : State) : (s.applyStaged).freeCount = s.freeCount := rfl

/-! ### applyStagedIfDirty -/

@[simp] theorem State.applyStagedIfDirty_pending (s : State) : (s.applyStagedIfDirty).pending = s.pending :=
  by unfold State.applyStagedIfDirty; split <;> rfl
@[simp] theorem State.applyStagedIfDirty_setup (s : State) : (s.applyStagedIfDirty).setup = s.setup :=
  by unfold State.applyStagedIfDirty; split <;> rfl
@[simp] theorem State.applyStagedIfDirty_status (s : State) : (s.applyStagedIfDirty).status = s.status :=
  by unfold State.applyStagedIfDirty; split <;> rfl
@[simp] theorem State.applyStagedIfDirty_trays (s : State) : (s.applyStagedIfDirty).trays = s.trays :=
  by unfold State.applyStagedIfDirty; split <;> rfl
@[simp] theorem State.applyStagedIfDirty_mode (s : State) : (s.applyStagedIfDirty).mode = s.mode :=
  by unfold State.applyStagedIfDirty; split <;> rfl
@[simp] theorem State.applyStagedIfDirty_entries (s : State) : (s.applyStagedIfDirty).entries = s.entries :=
  by unfold State.applyStagedIfDirty; split <;> rfl
@[simp] theorem State.applyStagedIfDirty_lastUninspected (s : State) : (s.applyStagedIfDirty).lastUninspected = s.lastUninspected :=
  by unfold State.applyStagedIfDirty; split <;> rfl
@[simp] theorem State.applyStagedIfDirty_parsers (s : State) : (s.applyStagedIfDirty).parsers = s.parsers :=
  by unfold State.applyStagedIfDirty; split <;> rfl
@[simp] theorem State.applyStagedIfDirty_zones (s : State) : (s.applyStagedIfDirty).zones = s.zones :=
  by unfold State.applyStagedIfDirty; split <;> rfl
@[simp] theorem State.applyStagedIfDirty_cancel (s : State) : (s.applyStagedIfDirty).cancel = s.cancel :=
  by unfold State.applyStagedIfDirty; split <;> rfl
@[simp] theorem State.applyStagedIfDirty_tally (s : State) : (s.applyStagedIfDirty).tally = s.tally :=
  by unfold State.applyStagedIfDirty; split <;> rfl
@[simp] theorem State.applyStagedIfDirty_report (s : State) : (s.applyStagedIfDirty).report = s.report :=
  by unfold State.applyStagedIfDirty; split <;> rfl
@[simp] theorem State.applyStagedIfDirty_path (s : State) : (s.applyStagedIfDirty).path = s.path :=
  by unfold State.applyStagedIfDirty; split <;> rfl
@[simp] theorem State.applyStagedIfDirty_freeCount (s : State) : (s.applyStagedIfDirty).freeCount = s.freeCount :=
  by unfold State.applyStagedIfDirty; split <;> rfl

/-! ### generationAtOpen -/

@[simp] theorem State.generationAtOpen_pending (s : State) : (s.generationAtOpen).pending = s.pending :=
  by unfold State.generationAtOpen; split <;> rfl
@[simp] theorem State.generationAtOpen_setup (s : State) : (s.generationAtOpen).setup = s.setup :=
  by unfold State.generationAtOpen; split <;> rfl
@[simp] theorem State.generationAtOpen_status (s : State) : (s.generationAtOpen).status = s.status :=
  by unfold State.generationAtOpen; split <;> rfl
@[simp] theorem State.generationAtOpen_trays (s : State) : (s.generationAtOpen).trays = s.trays :=
  by unfold State.generationAtOpen; split <;> rfl
@[simp] theorem State.generationAtOpen_mode (s : State) : (s.generationAtOpen).mode = s.mode :=
  by unfold State.generationAtOpen; split <;> rfl
@[simp] theorem State.generationAtOpen_entries (s : State) : (s.generationAtOpen).entries = s.entries :=
  by unfold State.generationAtOpen; split <;> rfl
@[simp] theorem State.generationAtOpen_lastUninspected (s : State) : (s.generationAtOpen).lastUninspected = s.lastUninspected :=
  by unfold State.generationAtOpen; split <;> rfl
@[simp] theorem State.generationAtOpen_parsers (s : State) : (s.generationAtOpen).parsers = s.parsers :=
  by unfold State.generationAtOpen; split <;> rfl
@[simp] theorem State.generationAtOpen_zones (s : State) : (s.generationAtOpen).zones = s.zones :=
  by unfold State.generationAtOpen; split <;> rfl
@[simp] theorem State.generationAtOpen_cancel (s : State) : (s.generationAtOpen).cancel = s.cancel :=
  by unfold State.generationAtOpen; split <;> rfl
@[simp] theorem State.generationAtOpen_tally (s : State) : (s.generationAtOpen).tally = s.tally :=
  by unfold State.generationAtOpen; split <;> rfl
@[simp] theorem State.generationAtOpen_report (s : State) : (s.generationAtOpen).report = s.report :=
  by unfold State.generationAtOpen; split <;> rfl
@[simp] theorem State.generationAtOpen_path (s : State) : (s.generationAtOpen).path = s.path :=
  by unfold State.generationAtOpen; split <;> rfl
@[simp] theorem State.generationAtOpen_freeCount (s : State) : (s.generationAtOpen).freeCount = s.freeCount :=
  by unfold State.generationAtOpen; split <;> rfl

/-! ### dropZoneWork -/

@[simp] theorem State.dropZoneWork_pending (s : State) (p : Nat) : (s.dropZoneWork p).pending = s.pending := rfl
@[simp] theorem State.dropZoneWork_setup (s : State) (p : Nat) : (s.dropZoneWork p).setup = s.setup := rfl
@[simp] theorem State.dropZoneWork_status (s : State) (p : Nat) : (s.dropZoneWork p).status = s.status := rfl
@[simp] theorem State.dropZoneWork_gens (s : State) (p : Nat) : (s.dropZoneWork p).gens = s.gens := rfl
@[simp] theorem State.dropZoneWork_trays (s : State) (p : Nat) : (s.dropZoneWork p).trays = s.trays := rfl
@[simp] theorem State.dropZoneWork_mode (s : State) (p : Nat) : (s.dropZoneWork p).mode = s.mode := rfl
@[simp] theorem State.dropZoneWork_lastUninspected (s : State) (p : Nat) : (s.dropZoneWork p).lastUninspected = s.lastUninspected :=
  rfl
@[simp] theorem State.dropZoneWork_parsers (s : State) (p : Nat) : (s.dropZoneWork p).parsers = s.parsers := rfl
@[simp] theorem State.dropZoneWork_cancel (s : State) (p : Nat) : (s.dropZoneWork p).cancel = s.cancel := rfl
@[simp] theorem State.dropZoneWork_tally (s : State) (p : Nat) : (s.dropZoneWork p).tally = s.tally := rfl
@[simp] theorem State.dropZoneWork_report (s : State) (p : Nat) : (s.dropZoneWork p).report = s.report := rfl
@[simp] theorem State.dropZoneWork_path (s : State) (p : Nat) : (s.dropZoneWork p).path = s.path := rfl
@[simp] theorem State.dropZoneWork_freeCount (s : State) (p : Nat) : (s.dropZoneWork p).freeCount = s.freeCount := rfl

/-! ### finishInspection -/

@[simp] theorem State.finishInspection_pending (s : State) (p : Nat) : (s.finishInspection p).pending = s.pending :=
  rfl
@[simp] theorem State.finishInspection_setup (s : State) (p : Nat) : (s.finishInspection p).setup = s.setup := rfl
@[simp] theorem State.finishInspection_status (s : State) (p : Nat) : (s.finishInspection p).status = s.status := rfl
@[simp] theorem State.finishInspection_trays (s : State) (p : Nat) : (s.finishInspection p).trays = s.trays := rfl
@[simp] theorem State.finishInspection_mode (s : State) (p : Nat) : (s.finishInspection p).mode = s.mode := rfl
@[simp] theorem State.finishInspection_lastUninspected (s : State) (p : Nat) : (s.finishInspection p).lastUninspected = s.lastUninspected :=
  rfl
@[simp] theorem State.finishInspection_zones (s : State) (p : Nat) : (s.finishInspection p).zones = s.zones := rfl
@[simp] theorem State.finishInspection_cancel (s : State) (p : Nat) : (s.finishInspection p).cancel = s.cancel := rfl
@[simp] theorem State.finishInspection_tally (s : State) (p : Nat) : (s.finishInspection p).tally = s.tally := rfl
@[simp] theorem State.finishInspection_report (s : State) (p : Nat) : (s.finishInspection p).report = s.report := rfl
@[simp] theorem State.finishInspection_path (s : State) (p : Nat) : (s.finishInspection p).path = s.path := rfl
@[simp] theorem State.finishInspection_freeCount (s : State) (p : Nat) : (s.finishInspection p).freeCount = s.freeCount :=
  rfl

/-! ### idleInspection -/

@[simp] theorem State.idleInspection_pending (s : State) : (s.idleInspection).pending = s.pending := rfl
@[simp] theorem State.idleInspection_setup (s : State) : (s.idleInspection).setup = s.setup := rfl
@[simp] theorem State.idleInspection_status (s : State) : (s.idleInspection).status = s.status := rfl
@[simp] theorem State.idleInspection_gens (s : State) : (s.idleInspection).gens = s.gens := rfl
@[simp] theorem State.idleInspection_trays (s : State) : (s.idleInspection).trays = s.trays := rfl
@[simp] theorem State.idleInspection_mode (s : State) : (s.idleInspection).mode = s.mode := rfl
@[simp] theorem State.idleInspection_entries (s : State) : (s.idleInspection).entries = s.entries := rfl
@[simp] theorem State.idleInspection_lastUninspected (s : State) : (s.idleInspection).lastUninspected = s.lastUninspected :=
  rfl
@[simp] theorem State.idleInspection_cancel (s : State) : (s.idleInspection).cancel = s.cancel := rfl
@[simp] theorem State.idleInspection_tally (s : State) : (s.idleInspection).tally = s.tally := rfl
@[simp] theorem State.idleInspection_report (s : State) : (s.idleInspection).report = s.report := rfl
@[simp] theorem State.idleInspection_path (s : State) : (s.idleInspection).path = s.path := rfl
@[simp] theorem State.idleInspection_freeCount (s : State) : (s.idleInspection).freeCount = s.freeCount := rfl

/-! ### enterStandby -/

@[simp] theorem State.enterStandby_pending (s : State) : (s.enterStandby).pending = s.pending :=
  by unfold State.enterStandby; simp
@[simp] theorem State.enterStandby_setup (s : State) : (s.enterStandby).setup = s.setup :=
  by unfold State.enterStandby; simp
@[simp] theorem State.enterStandby_status (s : State) : (s.enterStandby).status = s.status :=
  by unfold State.enterStandby; simp
@[simp] theorem State.enterStandby_trays (s : State) : (s.enterStandby).trays = s.trays :=
  by unfold State.enterStandby; simp
@[simp] theorem State.enterStandby_entries (s : State) : (s.enterStandby).entries = s.entries :=
  by unfold State.enterStandby; simp
@[simp] theorem State.enterStandby_lastUninspected (s : State) : (s.enterStandby).lastUninspected = s.lastUninspected :=
  by unfold State.enterStandby; simp
@[simp] theorem State.enterStandby_cancel (s : State) : (s.enterStandby).cancel = s.cancel :=
  by unfold State.enterStandby; simp
@[simp] theorem State.enterStandby_tally (s : State) : (s.enterStandby).tally = s.tally :=
  by unfold State.enterStandby; simp
@[simp] theorem State.enterStandby_report (s : State) : (s.enterStandby).report = s.report :=
  by unfold State.enterStandby; simp
@[simp] theorem State.enterStandby_path (s : State) : (s.enterStandby).path = s.path :=
  by unfold State.enterStandby; simp
@[simp] theorem State.enterStandby_freeCount (s : State) : (s.enterStandby).freeCount = s.freeCount :=
  by unfold State.enterStandby; simp

/-! ### count -/

@[simp] theorem State.count_pending (s : State) (k : Fin 12) : (s.count k).pending = s.pending := rfl
@[simp] theorem State.count_setup (s : State) (k : Fin 12) : (s.count k).setup = s.setup := rfl
@[simp] theorem State.count_status (s : State) (k : Fin 12) : (s.count k).status = s.status := rfl
@[simp] theorem State.count_gens (s : State) (k : Fin 12) : (s.count k).gens = s.gens := rfl
@[simp] theorem State.count_trays (s : State) (k : Fin 12) : (s.count k).trays = s.trays := rfl
@[simp] theorem State.count_mode (s : State) (k : Fin 12) : (s.count k).mode = s.mode := rfl
@[simp] theorem State.count_entries (s : State) (k : Fin 12) : (s.count k).entries = s.entries := rfl
@[simp] theorem State.count_lastUninspected (s : State) (k : Fin 12) : (s.count k).lastUninspected = s.lastUninspected :=
  rfl
@[simp] theorem State.count_parsers (s : State) (k : Fin 12) : (s.count k).parsers = s.parsers := rfl
@[simp] theorem State.count_zones (s : State) (k : Fin 12) : (s.count k).zones = s.zones := rfl
@[simp] theorem State.count_cancel (s : State) (k : Fin 12) : (s.count k).cancel = s.cancel := rfl
@[simp] theorem State.count_report (s : State) (k : Fin 12) : (s.count k).report = s.report := rfl
@[simp] theorem State.count_path (s : State) (k : Fin 12) : (s.count k).path = s.path := rfl
@[simp] theorem State.count_freeCount (s : State) (k : Fin 12) : (s.count k).freeCount = s.freeCount := rfl

/-! ### countOpened -/

@[simp] theorem State.countOpened_pending (s : State) : (s.countOpened).pending = s.pending := rfl
@[simp] theorem State.countOpened_setup (s : State) : (s.countOpened).setup = s.setup := rfl
@[simp] theorem State.countOpened_status (s : State) : (s.countOpened).status = s.status := rfl
@[simp] theorem State.countOpened_gens (s : State) : (s.countOpened).gens = s.gens := rfl
@[simp] theorem State.countOpened_trays (s : State) : (s.countOpened).trays = s.trays := rfl
@[simp] theorem State.countOpened_mode (s : State) : (s.countOpened).mode = s.mode := rfl
@[simp] theorem State.countOpened_entries (s : State) : (s.countOpened).entries = s.entries := rfl
@[simp] theorem State.countOpened_lastUninspected (s : State) : (s.countOpened).lastUninspected = s.lastUninspected :=
  rfl
@[simp] theorem State.countOpened_parsers (s : State) : (s.countOpened).parsers = s.parsers := rfl
@[simp] theorem State.countOpened_zones (s : State) : (s.countOpened).zones = s.zones := rfl
@[simp] theorem State.countOpened_cancel (s : State) : (s.countOpened).cancel = s.cancel := rfl
@[simp] theorem State.countOpened_report (s : State) : (s.countOpened).report = s.report := rfl
@[simp] theorem State.countOpened_path (s : State) : (s.countOpened).path = s.path := rfl
@[simp] theorem State.countOpened_freeCount (s : State) : (s.countOpened).freeCount = s.freeCount := rfl

/-! ### joinTrayRecord -/

@[simp] theorem State.joinTrayRecord_pending (s : State) : (s.joinTrayRecord).pending = s.pending :=
  by unfold State.joinTrayRecord; split <;> (try split) <;> rfl
@[simp] theorem State.joinTrayRecord_setup (s : State) : (s.joinTrayRecord).setup = s.setup :=
  by unfold State.joinTrayRecord; split <;> (try split) <;> rfl
@[simp] theorem State.joinTrayRecord_status (s : State) : (s.joinTrayRecord).status = s.status :=
  by unfold State.joinTrayRecord; split <;> (try split) <;> rfl
@[simp] theorem State.joinTrayRecord_gens (s : State) : (s.joinTrayRecord).gens = s.gens :=
  by unfold State.joinTrayRecord; split <;> (try split) <;> rfl
@[simp] theorem State.joinTrayRecord_trays (s : State) : (s.joinTrayRecord).trays = s.trays :=
  by unfold State.joinTrayRecord; split <;> (try split) <;> rfl
@[simp] theorem State.joinTrayRecord_mode (s : State) : (s.joinTrayRecord).mode = s.mode :=
  by unfold State.joinTrayRecord; split <;> (try split) <;> rfl
@[simp] theorem State.joinTrayRecord_entries (s : State) : (s.joinTrayRecord).entries = s.entries :=
  by unfold State.joinTrayRecord; split <;> (try split) <;> rfl
@[simp] theorem State.joinTrayRecord_lastUninspected (s : State) : (s.joinTrayRecord).lastUninspected = s.lastUninspected :=
  by unfold State.joinTrayRecord; split <;> (try split) <;> rfl
@[simp] theorem State.joinTrayRecord_parsers (s : State) : (s.joinTrayRecord).parsers = s.parsers :=
  by unfold State.joinTrayRecord; split <;> (try split) <;> rfl
@[simp] theorem State.joinTrayRecord_zones (s : State) : (s.joinTrayRecord).zones = s.zones :=
  by unfold State.joinTrayRecord; split <;> (try split) <;> rfl
@[simp] theorem State.joinTrayRecord_cancel (s : State) : (s.joinTrayRecord).cancel = s.cancel :=
  by unfold State.joinTrayRecord; split <;> (try split) <;> rfl
@[simp] theorem State.joinTrayRecord_tally (s : State) : (s.joinTrayRecord).tally = s.tally :=
  by unfold State.joinTrayRecord; split <;> (try split) <;> rfl
@[simp] theorem State.joinTrayRecord_path (s : State) : (s.joinTrayRecord).path = s.path :=
  by unfold State.joinTrayRecord; split <;> (try split) <;> rfl
@[simp] theorem State.joinTrayRecord_freeCount (s : State) : (s.joinTrayRecord).freeCount = s.freeCount :=
  by unfold State.joinTrayRecord; split <;> (try split) <;> rfl

/-! ### applyTraySetIfDirty -/

@[simp] theorem State.applyTraySetIfDirty_pending (s : State) : (s.applyTraySetIfDirty).pending = s.pending :=
  by unfold State.applyTraySetIfDirty; split <;> rfl
@[simp] theorem State.applyTraySetIfDirty_setup (s : State) : (s.applyTraySetIfDirty).setup = s.setup :=
  by unfold State.applyTraySetIfDirty; split <;> rfl
@[simp] theorem State.applyTraySetIfDirty_status (s : State) : (s.applyTraySetIfDirty).status = s.status :=
  by unfold State.applyTraySetIfDirty; split <;> rfl
@[simp] theorem State.applyTraySetIfDirty_gens (s : State) : (s.applyTraySetIfDirty).gens = s.gens :=
  by unfold State.applyTraySetIfDirty; split <;> rfl
@[simp] theorem State.applyTraySetIfDirty_mode (s : State) : (s.applyTraySetIfDirty).mode = s.mode :=
  by unfold State.applyTraySetIfDirty; split <;> rfl
@[simp] theorem State.applyTraySetIfDirty_entries (s : State) : (s.applyTraySetIfDirty).entries = s.entries :=
  by unfold State.applyTraySetIfDirty; split <;> rfl
@[simp] theorem State.applyTraySetIfDirty_lastUninspected (s : State) : (s.applyTraySetIfDirty).lastUninspected = s.lastUninspected :=
  by unfold State.applyTraySetIfDirty; split <;> rfl
@[simp] theorem State.applyTraySetIfDirty_parsers (s : State) : (s.applyTraySetIfDirty).parsers = s.parsers :=
  by unfold State.applyTraySetIfDirty; split <;> rfl
@[simp] theorem State.applyTraySetIfDirty_zones (s : State) : (s.applyTraySetIfDirty).zones = s.zones :=
  by unfold State.applyTraySetIfDirty; split <;> rfl
@[simp] theorem State.applyTraySetIfDirty_cancel (s : State) : (s.applyTraySetIfDirty).cancel = s.cancel :=
  by unfold State.applyTraySetIfDirty; split <;> rfl
@[simp] theorem State.applyTraySetIfDirty_tally (s : State) : (s.applyTraySetIfDirty).tally = s.tally :=
  by unfold State.applyTraySetIfDirty; split <;> rfl
@[simp] theorem State.applyTraySetIfDirty_report (s : State) : (s.applyTraySetIfDirty).report = s.report :=
  by unfold State.applyTraySetIfDirty; split <;> rfl
@[simp] theorem State.applyTraySetIfDirty_path (s : State) : (s.applyTraySetIfDirty).path = s.path :=
  by unfold State.applyTraySetIfDirty; split <;> rfl
@[simp] theorem State.applyTraySetIfDirty_freeCount (s : State) : (s.applyTraySetIfDirty).freeCount = s.freeCount :=
  by unfold State.applyTraySetIfDirty; split <;> rfl

/-! ### executeClose -/

@[simp] theorem State.executeClose_pending (s : State) (r : CloseReason) (m : SealMark) : (s.executeClose r m).pending = s.pending :=
  by unfold State.executeClose; simp
@[simp] theorem State.executeClose_setup (s : State) (r : CloseReason) (m : SealMark) : (s.executeClose r m).setup = s.setup :=
  by unfold State.executeClose; simp
@[simp] theorem State.executeClose_status (s : State) (r : CloseReason) (m : SealMark) : (s.executeClose r m).status = s.status :=
  by unfold State.executeClose; simp
@[simp] theorem State.executeClose_gens (s : State) (r : CloseReason) (m : SealMark) : (s.executeClose r m).gens = s.gens :=
  by unfold State.executeClose; simp
@[simp] theorem State.executeClose_mode (s : State) (r : CloseReason) (m : SealMark) : (s.executeClose r m).mode = s.mode :=
  by unfold State.executeClose; simp
@[simp] theorem State.executeClose_entries (s : State) (r : CloseReason) (m : SealMark) : (s.executeClose r m).entries = s.entries :=
  by unfold State.executeClose; simp
@[simp] theorem State.executeClose_lastUninspected (s : State) (r : CloseReason) (m : SealMark) : (s.executeClose r m).lastUninspected = s.lastUninspected :=
  by unfold State.executeClose; simp
@[simp] theorem State.executeClose_parsers (s : State) (r : CloseReason) (m : SealMark) : (s.executeClose r m).parsers = s.parsers :=
  by unfold State.executeClose; simp
@[simp] theorem State.executeClose_zones (s : State) (r : CloseReason) (m : SealMark) : (s.executeClose r m).zones = s.zones :=
  by unfold State.executeClose; simp
@[simp] theorem State.executeClose_cancel (s : State) (r : CloseReason) (m : SealMark) : (s.executeClose r m).cancel = s.cancel :=
  by unfold State.executeClose; simp
@[simp] theorem State.executeClose_path (s : State) (r : CloseReason) (m : SealMark) : (s.executeClose r m).path = s.path :=
  by unfold State.executeClose; simp
@[simp] theorem State.executeClose_freeCount (s : State) (r : CloseReason) (m : SealMark) : (s.executeClose r m).freeCount = s.freeCount :=
  by unfold State.executeClose; simp

/-! ### requestClose -/

@[simp] theorem State.requestClose_pending (s : State) (r : CloseReason) : (s.requestClose r).pending = s.pending :=
  by unfold State.requestClose; split <;> (try split) <;> simp
@[simp] theorem State.requestClose_setup (s : State) (r : CloseReason) : (s.requestClose r).setup = s.setup :=
  by unfold State.requestClose; split <;> (try split) <;> simp
@[simp] theorem State.requestClose_status (s : State) (r : CloseReason) : (s.requestClose r).status = s.status :=
  by unfold State.requestClose; split <;> (try split) <;> simp
@[simp] theorem State.requestClose_gens (s : State) (r : CloseReason) : (s.requestClose r).gens = s.gens :=
  by unfold State.requestClose; split <;> (try split) <;> simp
@[simp] theorem State.requestClose_mode (s : State) (r : CloseReason) : (s.requestClose r).mode = s.mode :=
  by unfold State.requestClose; split <;> (try split) <;> simp
@[simp] theorem State.requestClose_entries (s : State) (r : CloseReason) : (s.requestClose r).entries = s.entries :=
  by unfold State.requestClose; split <;> (try split) <;> simp
@[simp] theorem State.requestClose_lastUninspected (s : State) (r : CloseReason) : (s.requestClose r).lastUninspected = s.lastUninspected :=
  by unfold State.requestClose; split <;> (try split) <;> simp
@[simp] theorem State.requestClose_parsers (s : State) (r : CloseReason) : (s.requestClose r).parsers = s.parsers :=
  by unfold State.requestClose; split <;> (try split) <;> simp
@[simp] theorem State.requestClose_zones (s : State) (r : CloseReason) : (s.requestClose r).zones = s.zones :=
  by unfold State.requestClose; split <;> (try split) <;> simp
@[simp] theorem State.requestClose_cancel (s : State) (r : CloseReason) : (s.requestClose r).cancel = s.cancel :=
  by unfold State.requestClose; split <;> (try split) <;> simp
@[simp] theorem State.requestClose_path (s : State) (r : CloseReason) : (s.requestClose r).path = s.path :=
  by unfold State.requestClose; split <;> (try split) <;> simp
@[simp] theorem State.requestClose_freeCount (s : State) (r : CloseReason) : (s.requestClose r).freeCount = s.freeCount :=
  by unfold State.requestClose; split <;> (try split) <;> simp

/-! ### settlePending -/

@[simp] theorem State.settlePending_pending (s : State) : (s.settlePending).pending = s.pending :=
  by unfold State.settlePending; split <;> simp
@[simp] theorem State.settlePending_setup (s : State) : (s.settlePending).setup = s.setup :=
  by unfold State.settlePending; split <;> simp
@[simp] theorem State.settlePending_status (s : State) : (s.settlePending).status = s.status :=
  by unfold State.settlePending; split <;> simp
@[simp] theorem State.settlePending_gens (s : State) : (s.settlePending).gens = s.gens :=
  by unfold State.settlePending; split <;> simp
@[simp] theorem State.settlePending_mode (s : State) : (s.settlePending).mode = s.mode :=
  by unfold State.settlePending; split <;> simp
@[simp] theorem State.settlePending_entries (s : State) : (s.settlePending).entries = s.entries :=
  by unfold State.settlePending; split <;> simp
@[simp] theorem State.settlePending_lastUninspected (s : State) : (s.settlePending).lastUninspected = s.lastUninspected :=
  by unfold State.settlePending; split <;> simp
@[simp] theorem State.settlePending_parsers (s : State) : (s.settlePending).parsers = s.parsers :=
  by unfold State.settlePending; split <;> simp
@[simp] theorem State.settlePending_zones (s : State) : (s.settlePending).zones = s.zones :=
  by unfold State.settlePending; split <;> simp
@[simp] theorem State.settlePending_cancel (s : State) : (s.settlePending).cancel = s.cancel :=
  by unfold State.settlePending; split <;> simp
@[simp] theorem State.settlePending_path (s : State) : (s.settlePending).path = s.path :=
  by unfold State.settlePending; split <;> simp
@[simp] theorem State.settlePending_freeCount (s : State) : (s.settlePending).freeCount = s.freeCount :=
  by unfold State.settlePending; split <;> simp

/-! ### limitCheck -/

@[simp] theorem State.limitCheck_pending (s : State) : (s.limitCheck).pending = s.pending :=
  by unfold State.limitCheck; split <;> simp
@[simp] theorem State.limitCheck_setup (s : State) : (s.limitCheck).setup = s.setup :=
  by unfold State.limitCheck; split <;> simp
@[simp] theorem State.limitCheck_status (s : State) : (s.limitCheck).status = s.status :=
  by unfold State.limitCheck; split <;> simp
@[simp] theorem State.limitCheck_gens (s : State) : (s.limitCheck).gens = s.gens :=
  by unfold State.limitCheck; split <;> simp
@[simp] theorem State.limitCheck_mode (s : State) : (s.limitCheck).mode = s.mode :=
  by unfold State.limitCheck; split <;> simp
@[simp] theorem State.limitCheck_entries (s : State) : (s.limitCheck).entries = s.entries :=
  by unfold State.limitCheck; split <;> simp
@[simp] theorem State.limitCheck_lastUninspected (s : State) : (s.limitCheck).lastUninspected = s.lastUninspected :=
  by unfold State.limitCheck; split <;> simp
@[simp] theorem State.limitCheck_parsers (s : State) : (s.limitCheck).parsers = s.parsers :=
  by unfold State.limitCheck; split <;> simp
@[simp] theorem State.limitCheck_zones (s : State) : (s.limitCheck).zones = s.zones :=
  by unfold State.limitCheck; split <;> simp
@[simp] theorem State.limitCheck_cancel (s : State) : (s.limitCheck).cancel = s.cancel :=
  by unfold State.limitCheck; split <;> simp
@[simp] theorem State.limitCheck_path (s : State) : (s.limitCheck).path = s.path :=
  by unfold State.limitCheck; split <;> simp
@[simp] theorem State.limitCheck_freeCount (s : State) : (s.limitCheck).freeCount = s.freeCount :=
  by unfold State.limitCheck; split <;> simp

/-! ### formPieceRecord -/

@[simp] theorem State.formPieceRecord_pending (s : State) (e : Entry) (d : Disposition) : (s.formPieceRecord e d).pending = s.pending :=
  by unfold State.formPieceRecord; simp only []; split <;> rfl
@[simp] theorem State.formPieceRecord_setup (s : State) (e : Entry) (d : Disposition) : (s.formPieceRecord e d).setup = s.setup :=
  by unfold State.formPieceRecord; simp only []; split <;> rfl
@[simp] theorem State.formPieceRecord_gens (s : State) (e : Entry) (d : Disposition) : (s.formPieceRecord e d).gens = s.gens :=
  by unfold State.formPieceRecord; simp only []; split <;> rfl
@[simp] theorem State.formPieceRecord_trays (s : State) (e : Entry) (d : Disposition) : (s.formPieceRecord e d).trays = s.trays :=
  by unfold State.formPieceRecord; simp only []; split <;> rfl
@[simp] theorem State.formPieceRecord_mode (s : State) (e : Entry) (d : Disposition) : (s.formPieceRecord e d).mode = s.mode :=
  by unfold State.formPieceRecord; simp only []; split <;> rfl
@[simp] theorem State.formPieceRecord_entries (s : State) (e : Entry) (d : Disposition) : (s.formPieceRecord e d).entries = s.entries :=
  by unfold State.formPieceRecord; simp only []; split <;> rfl
@[simp] theorem State.formPieceRecord_lastUninspected (s : State) (e : Entry) (d : Disposition) : (s.formPieceRecord e d).lastUninspected = s.lastUninspected :=
  by unfold State.formPieceRecord; simp only []; split <;> rfl
@[simp] theorem State.formPieceRecord_parsers (s : State) (e : Entry) (d : Disposition) : (s.formPieceRecord e d).parsers = s.parsers :=
  by unfold State.formPieceRecord; simp only []; split <;> rfl
@[simp] theorem State.formPieceRecord_zones (s : State) (e : Entry) (d : Disposition) : (s.formPieceRecord e d).zones = s.zones :=
  by unfold State.formPieceRecord; simp only []; split <;> rfl
@[simp] theorem State.formPieceRecord_cancel (s : State) (e : Entry) (d : Disposition) : (s.formPieceRecord e d).cancel = s.cancel :=
  by unfold State.formPieceRecord; simp only []; split <;> rfl
@[simp] theorem State.formPieceRecord_tally (s : State) (e : Entry) (d : Disposition) : (s.formPieceRecord e d).tally = s.tally :=
  by unfold State.formPieceRecord; simp only []; split <;> rfl
@[simp] theorem State.formPieceRecord_path (s : State) (e : Entry) (d : Disposition) : (s.formPieceRecord e d).path = s.path :=
  by unfold State.formPieceRecord; simp only []; split <;> rfl
@[simp] theorem State.formPieceRecord_freeCount (s : State) (e : Entry) (d : Disposition) : (s.formPieceRecord e d).freeCount = s.freeCount :=
  by unfold State.formPieceRecord; simp only []; split <;> rfl

/-! ### removeEntry -/

@[simp] theorem State.removeEntry_pending (s : State) (p : Nat) : (s.removeEntry p).pending = s.pending := rfl
@[simp] theorem State.removeEntry_setup (s : State) (p : Nat) : (s.removeEntry p).setup = s.setup := rfl
@[simp] theorem State.removeEntry_status (s : State) (p : Nat) : (s.removeEntry p).status = s.status := rfl
@[simp] theorem State.removeEntry_trays (s : State) (p : Nat) : (s.removeEntry p).trays = s.trays := rfl
@[simp] theorem State.removeEntry_mode (s : State) (p : Nat) : (s.removeEntry p).mode = s.mode := rfl
@[simp] theorem State.removeEntry_lastUninspected (s : State) (p : Nat) : (s.removeEntry p).lastUninspected = s.lastUninspected :=
  rfl
@[simp] theorem State.removeEntry_cancel (s : State) (p : Nat) : (s.removeEntry p).cancel = s.cancel := rfl
@[simp] theorem State.removeEntry_tally (s : State) (p : Nat) : (s.removeEntry p).tally = s.tally := rfl
@[simp] theorem State.removeEntry_report (s : State) (p : Nat) : (s.removeEntry p).report = s.report := rfl
@[simp] theorem State.removeEntry_path (s : State) (p : Nat) : (s.removeEntry p).path = s.path := rfl
@[simp] theorem State.removeEntry_freeCount (s : State) (p : Nat) : (s.removeEntry p).freeCount = s.freeCount := rfl

/-! ### suspend -/

@[simp] theorem State.suspend_pending (s : State) : (s.suspend).pending = s.pending := rfl
@[simp] theorem State.suspend_setup (s : State) : (s.suspend).setup = s.setup := rfl
@[simp] theorem State.suspend_status (s : State) : (s.suspend).status = s.status := rfl
@[simp] theorem State.suspend_gens (s : State) : (s.suspend).gens = s.gens := rfl
@[simp] theorem State.suspend_trays (s : State) : (s.suspend).trays = s.trays := rfl
@[simp] theorem State.suspend_mode (s : State) : (s.suspend).mode = s.mode := rfl
@[simp] theorem State.suspend_entries (s : State) : (s.suspend).entries = s.entries := rfl
@[simp] theorem State.suspend_lastUninspected (s : State) : (s.suspend).lastUninspected = s.lastUninspected := rfl
@[simp] theorem State.suspend_parsers (s : State) : (s.suspend).parsers = s.parsers := rfl
@[simp] theorem State.suspend_zones (s : State) : (s.suspend).zones = s.zones := rfl
@[simp] theorem State.suspend_tally (s : State) : (s.suspend).tally = s.tally := rfl
@[simp] theorem State.suspend_report (s : State) : (s.suspend).report = s.report := rfl
@[simp] theorem State.suspend_path (s : State) : (s.suspend).path = s.path := rfl
@[simp] theorem State.suspend_freeCount (s : State) : (s.suspend).freeCount = s.freeCount := rfl

/-! ### resume -/

@[simp] theorem State.resume_pending (s : State) : (s.resume).pending = s.pending := rfl
@[simp] theorem State.resume_setup (s : State) : (s.resume).setup = s.setup := rfl
@[simp] theorem State.resume_status (s : State) : (s.resume).status = s.status := rfl
@[simp] theorem State.resume_gens (s : State) : (s.resume).gens = s.gens := rfl
@[simp] theorem State.resume_trays (s : State) : (s.resume).trays = s.trays := rfl
@[simp] theorem State.resume_mode (s : State) : (s.resume).mode = s.mode := rfl
@[simp] theorem State.resume_entries (s : State) : (s.resume).entries = s.entries := rfl
@[simp] theorem State.resume_lastUninspected (s : State) : (s.resume).lastUninspected = s.lastUninspected := rfl
@[simp] theorem State.resume_parsers (s : State) : (s.resume).parsers = s.parsers := rfl
@[simp] theorem State.resume_zones (s : State) : (s.resume).zones = s.zones := rfl
@[simp] theorem State.resume_tally (s : State) : (s.resume).tally = s.tally := rfl
@[simp] theorem State.resume_report (s : State) : (s.resume).report = s.report := rfl
@[simp] theorem State.resume_path (s : State) : (s.resume).path = s.path := rfl
@[simp] theorem State.resume_freeCount (s : State) : (s.resume).freeCount = s.freeCount := rfl

/-! ### releaseHold -/

@[simp] theorem State.releaseHold_pending (s : State) : (s.releaseHold).pending = s.pending := rfl
@[simp] theorem State.releaseHold_setup (s : State) : (s.releaseHold).setup = s.setup := rfl
@[simp] theorem State.releaseHold_status (s : State) : (s.releaseHold).status = s.status := rfl
@[simp] theorem State.releaseHold_gens (s : State) : (s.releaseHold).gens = s.gens := rfl
@[simp] theorem State.releaseHold_trays (s : State) : (s.releaseHold).trays = s.trays := rfl
@[simp] theorem State.releaseHold_mode (s : State) : (s.releaseHold).mode = s.mode := rfl
@[simp] theorem State.releaseHold_entries (s : State) : (s.releaseHold).entries = s.entries := rfl
@[simp] theorem State.releaseHold_lastUninspected (s : State) : (s.releaseHold).lastUninspected = s.lastUninspected :=
  rfl
@[simp] theorem State.releaseHold_parsers (s : State) : (s.releaseHold).parsers = s.parsers := rfl
@[simp] theorem State.releaseHold_zones (s : State) : (s.releaseHold).zones = s.zones := rfl
@[simp] theorem State.releaseHold_tally (s : State) : (s.releaseHold).tally = s.tally := rfl
@[simp] theorem State.releaseHold_report (s : State) : (s.releaseHold).report = s.report := rfl
@[simp] theorem State.releaseHold_path (s : State) : (s.releaseHold).path = s.path := rfl
@[simp] theorem State.releaseHold_freeCount (s : State) : (s.releaseHold).freeCount = s.freeCount := rfl

/-! ### hold -/

@[simp] theorem State.hold_pending (s : State) : (s.hold).pending = s.pending := rfl
@[simp] theorem State.hold_setup (s : State) : (s.hold).setup = s.setup := rfl
@[simp] theorem State.hold_gens (s : State) : (s.hold).gens = s.gens := rfl
@[simp] theorem State.hold_trays (s : State) : (s.hold).trays = s.trays := rfl
@[simp] theorem State.hold_mode (s : State) : (s.hold).mode = s.mode := rfl
@[simp] theorem State.hold_entries (s : State) : (s.hold).entries = s.entries := rfl
@[simp] theorem State.hold_lastUninspected (s : State) : (s.hold).lastUninspected = s.lastUninspected := rfl
@[simp] theorem State.hold_parsers (s : State) : (s.hold).parsers = s.parsers := rfl
@[simp] theorem State.hold_zones (s : State) : (s.hold).zones = s.zones := rfl
@[simp] theorem State.hold_tally (s : State) : (s.hold).tally = s.tally := rfl
@[simp] theorem State.hold_report (s : State) : (s.hold).report = s.report := rfl
@[simp] theorem State.hold_path (s : State) : (s.hold).path = s.path := rfl
@[simp] theorem State.hold_freeCount (s : State) : (s.hold).freeCount = s.freeCount := rfl

/-! ### setLane -/

@[simp] theorem State.setLane_pending (s : State) (l : Lane) (u : LaneUnit) : (s.setLane l u).pending = s.pending :=
  rfl
@[simp] theorem State.setLane_setup (s : State) (l : Lane) (u : LaneUnit) : (s.setLane l u).setup = s.setup := rfl
@[simp] theorem State.setLane_status (s : State) (l : Lane) (u : LaneUnit) : (s.setLane l u).status = s.status := rfl
@[simp] theorem State.setLane_gens (s : State) (l : Lane) (u : LaneUnit) : (s.setLane l u).gens = s.gens := rfl
@[simp] theorem State.setLane_trays (s : State) (l : Lane) (u : LaneUnit) : (s.setLane l u).trays = s.trays := rfl
@[simp] theorem State.setLane_mode (s : State) (l : Lane) (u : LaneUnit) : (s.setLane l u).mode = s.mode := rfl
@[simp] theorem State.setLane_entries (s : State) (l : Lane) (u : LaneUnit) : (s.setLane l u).entries = s.entries :=
  rfl
@[simp] theorem State.setLane_lastUninspected (s : State) (l : Lane) (u : LaneUnit) : (s.setLane l u).lastUninspected = s.lastUninspected :=
  rfl
@[simp] theorem State.setLane_parsers (s : State) (l : Lane) (u : LaneUnit) : (s.setLane l u).parsers = s.parsers :=
  rfl
@[simp] theorem State.setLane_zones (s : State) (l : Lane) (u : LaneUnit) : (s.setLane l u).zones = s.zones := rfl
@[simp] theorem State.setLane_cancel (s : State) (l : Lane) (u : LaneUnit) : (s.setLane l u).cancel = s.cancel := rfl
@[simp] theorem State.setLane_tally (s : State) (l : Lane) (u : LaneUnit) : (s.setLane l u).tally = s.tally := rfl
@[simp] theorem State.setLane_report (s : State) (l : Lane) (u : LaneUnit) : (s.setLane l u).report = s.report := rfl
@[simp] theorem State.setLane_freeCount (s : State) (l : Lane) (u : LaneUnit) : (s.setLane l u).freeCount = s.freeCount :=
  rfl

/-! ### sendDown -/

@[simp] theorem State.sendDown_pending (s : State) (d : DownSend) : (s.sendDown d).pending = s.pending := rfl
@[simp] theorem State.sendDown_setup (s : State) (d : DownSend) : (s.sendDown d).setup = s.setup := rfl
@[simp] theorem State.sendDown_status (s : State) (d : DownSend) : (s.sendDown d).status = s.status := rfl
@[simp] theorem State.sendDown_gens (s : State) (d : DownSend) : (s.sendDown d).gens = s.gens := rfl
@[simp] theorem State.sendDown_trays (s : State) (d : DownSend) : (s.sendDown d).trays = s.trays := rfl
@[simp] theorem State.sendDown_mode (s : State) (d : DownSend) : (s.sendDown d).mode = s.mode := rfl
@[simp] theorem State.sendDown_entries (s : State) (d : DownSend) : (s.sendDown d).entries = s.entries := rfl
@[simp] theorem State.sendDown_lastUninspected (s : State) (d : DownSend) : (s.sendDown d).lastUninspected = s.lastUninspected :=
  rfl
@[simp] theorem State.sendDown_parsers (s : State) (d : DownSend) : (s.sendDown d).parsers = s.parsers := rfl
@[simp] theorem State.sendDown_zones (s : State) (d : DownSend) : (s.sendDown d).zones = s.zones := rfl
@[simp] theorem State.sendDown_cancel (s : State) (d : DownSend) : (s.sendDown d).cancel = s.cancel := rfl
@[simp] theorem State.sendDown_tally (s : State) (d : DownSend) : (s.sendDown d).tally = s.tally := rfl
@[simp] theorem State.sendDown_report (s : State) (d : DownSend) : (s.sendDown d).report = s.report := rfl
@[simp] theorem State.sendDown_freeCount (s : State) (d : DownSend) : (s.sendDown d).freeCount = s.freeCount := rfl

/-! ### sendUp -/

@[simp] theorem State.sendUp_pending (s : State) (u : UpReturn) : (s.sendUp u).pending = s.pending := rfl
@[simp] theorem State.sendUp_setup (s : State) (u : UpReturn) : (s.sendUp u).setup = s.setup := rfl
@[simp] theorem State.sendUp_status (s : State) (u : UpReturn) : (s.sendUp u).status = s.status := rfl
@[simp] theorem State.sendUp_gens (s : State) (u : UpReturn) : (s.sendUp u).gens = s.gens := rfl
@[simp] theorem State.sendUp_trays (s : State) (u : UpReturn) : (s.sendUp u).trays = s.trays := rfl
@[simp] theorem State.sendUp_mode (s : State) (u : UpReturn) : (s.sendUp u).mode = s.mode := rfl
@[simp] theorem State.sendUp_entries (s : State) (u : UpReturn) : (s.sendUp u).entries = s.entries := rfl
@[simp] theorem State.sendUp_lastUninspected (s : State) (u : UpReturn) : (s.sendUp u).lastUninspected = s.lastUninspected :=
  rfl
@[simp] theorem State.sendUp_parsers (s : State) (u : UpReturn) : (s.sendUp u).parsers = s.parsers := rfl
@[simp] theorem State.sendUp_zones (s : State) (u : UpReturn) : (s.sendUp u).zones = s.zones := rfl
@[simp] theorem State.sendUp_cancel (s : State) (u : UpReturn) : (s.sendUp u).cancel = s.cancel := rfl
@[simp] theorem State.sendUp_tally (s : State) (u : UpReturn) : (s.sendUp u).tally = s.tally := rfl
@[simp] theorem State.sendUp_report (s : State) (u : UpReturn) : (s.sendUp u).report = s.report := rfl
@[simp] theorem State.sendUp_freeCount (s : State) (u : UpReturn) : (s.sendUp u).freeCount = s.freeCount := rfl

/-! ### openLane -/

@[simp] theorem State.openLane_pending (s : State) (l : Lane) : (s.openLane l).pending = s.pending := rfl
@[simp] theorem State.openLane_setup (s : State) (l : Lane) : (s.openLane l).setup = s.setup := rfl
@[simp] theorem State.openLane_status (s : State) (l : Lane) : (s.openLane l).status = s.status := rfl
@[simp] theorem State.openLane_gens (s : State) (l : Lane) : (s.openLane l).gens = s.gens := rfl
@[simp] theorem State.openLane_trays (s : State) (l : Lane) : (s.openLane l).trays = s.trays := rfl
@[simp] theorem State.openLane_mode (s : State) (l : Lane) : (s.openLane l).mode = s.mode := rfl
@[simp] theorem State.openLane_entries (s : State) (l : Lane) : (s.openLane l).entries = s.entries := rfl
@[simp] theorem State.openLane_lastUninspected (s : State) (l : Lane) : (s.openLane l).lastUninspected = s.lastUninspected :=
  rfl
@[simp] theorem State.openLane_parsers (s : State) (l : Lane) : (s.openLane l).parsers = s.parsers := rfl
@[simp] theorem State.openLane_zones (s : State) (l : Lane) : (s.openLane l).zones = s.zones := rfl
@[simp] theorem State.openLane_cancel (s : State) (l : Lane) : (s.openLane l).cancel = s.cancel := rfl
@[simp] theorem State.openLane_tally (s : State) (l : Lane) : (s.openLane l).tally = s.tally := rfl
@[simp] theorem State.openLane_report (s : State) (l : Lane) : (s.openLane l).report = s.report := rfl
@[simp] theorem State.openLane_freeCount (s : State) (l : Lane) : (s.openLane l).freeCount = s.freeCount := rfl

/-! ### closeLane -/

@[simp] theorem State.closeLane_pending (s : State) (l : Lane) : (s.closeLane l).pending = s.pending := rfl
@[simp] theorem State.closeLane_setup (s : State) (l : Lane) : (s.closeLane l).setup = s.setup := rfl
@[simp] theorem State.closeLane_status (s : State) (l : Lane) : (s.closeLane l).status = s.status := rfl
@[simp] theorem State.closeLane_gens (s : State) (l : Lane) : (s.closeLane l).gens = s.gens := rfl
@[simp] theorem State.closeLane_trays (s : State) (l : Lane) : (s.closeLane l).trays = s.trays := rfl
@[simp] theorem State.closeLane_mode (s : State) (l : Lane) : (s.closeLane l).mode = s.mode := rfl
@[simp] theorem State.closeLane_entries (s : State) (l : Lane) : (s.closeLane l).entries = s.entries := rfl
@[simp] theorem State.closeLane_lastUninspected (s : State) (l : Lane) : (s.closeLane l).lastUninspected = s.lastUninspected :=
  rfl
@[simp] theorem State.closeLane_parsers (s : State) (l : Lane) : (s.closeLane l).parsers = s.parsers := rfl
@[simp] theorem State.closeLane_zones (s : State) (l : Lane) : (s.closeLane l).zones = s.zones := rfl
@[simp] theorem State.closeLane_cancel (s : State) (l : Lane) : (s.closeLane l).cancel = s.cancel := rfl
@[simp] theorem State.closeLane_tally (s : State) (l : Lane) : (s.closeLane l).tally = s.tally := rfl
@[simp] theorem State.closeLane_report (s : State) (l : Lane) : (s.closeLane l).report = s.report := rfl
@[simp] theorem State.closeLane_freeCount (s : State) (l : Lane) : (s.closeLane l).freeCount = s.freeCount := rfl

/-! ### closeLaneIfDue -/

@[simp] theorem State.closeLaneIfDue_pending (s : State) (l : Lane) : (s.closeLaneIfDue l).pending = s.pending :=
  by unfold State.closeLaneIfDue; split <;> rfl
@[simp] theorem State.closeLaneIfDue_setup (s : State) (l : Lane) : (s.closeLaneIfDue l).setup = s.setup :=
  by unfold State.closeLaneIfDue; split <;> rfl
@[simp] theorem State.closeLaneIfDue_status (s : State) (l : Lane) : (s.closeLaneIfDue l).status = s.status :=
  by unfold State.closeLaneIfDue; split <;> rfl
@[simp] theorem State.closeLaneIfDue_gens (s : State) (l : Lane) : (s.closeLaneIfDue l).gens = s.gens :=
  by unfold State.closeLaneIfDue; split <;> rfl
@[simp] theorem State.closeLaneIfDue_trays (s : State) (l : Lane) : (s.closeLaneIfDue l).trays = s.trays :=
  by unfold State.closeLaneIfDue; split <;> rfl
@[simp] theorem State.closeLaneIfDue_mode (s : State) (l : Lane) : (s.closeLaneIfDue l).mode = s.mode :=
  by unfold State.closeLaneIfDue; split <;> rfl
@[simp] theorem State.closeLaneIfDue_entries (s : State) (l : Lane) : (s.closeLaneIfDue l).entries = s.entries :=
  by unfold State.closeLaneIfDue; split <;> rfl
@[simp] theorem State.closeLaneIfDue_lastUninspected (s : State) (l : Lane) : (s.closeLaneIfDue l).lastUninspected = s.lastUninspected :=
  by unfold State.closeLaneIfDue; split <;> rfl
@[simp] theorem State.closeLaneIfDue_parsers (s : State) (l : Lane) : (s.closeLaneIfDue l).parsers = s.parsers :=
  by unfold State.closeLaneIfDue; split <;> rfl
@[simp] theorem State.closeLaneIfDue_zones (s : State) (l : Lane) : (s.closeLaneIfDue l).zones = s.zones :=
  by unfold State.closeLaneIfDue; split <;> rfl
@[simp] theorem State.closeLaneIfDue_cancel (s : State) (l : Lane) : (s.closeLaneIfDue l).cancel = s.cancel :=
  by unfold State.closeLaneIfDue; split <;> rfl
@[simp] theorem State.closeLaneIfDue_tally (s : State) (l : Lane) : (s.closeLaneIfDue l).tally = s.tally :=
  by unfold State.closeLaneIfDue; split <;> rfl
@[simp] theorem State.closeLaneIfDue_report (s : State) (l : Lane) : (s.closeLaneIfDue l).report = s.report :=
  by unfold State.closeLaneIfDue; split <;> rfl
@[simp] theorem State.closeLaneIfDue_freeCount (s : State) (l : Lane) : (s.closeLaneIfDue l).freeCount = s.freeCount :=
  by unfold State.closeLaneIfDue; split <;> rfl

/-! ### setQueue -/

@[simp] theorem State.setQueue_pending (s : State) (l : UpLane) (q : List Queued) : (s.setQueue l q).pending = s.pending :=
  rfl
@[simp] theorem State.setQueue_setup (s : State) (l : UpLane) (q : List Queued) : (s.setQueue l q).setup = s.setup :=
  rfl
@[simp] theorem State.setQueue_status (s : State) (l : UpLane) (q : List Queued) : (s.setQueue l q).status = s.status :=
  rfl
@[simp] theorem State.setQueue_gens (s : State) (l : UpLane) (q : List Queued) : (s.setQueue l q).gens = s.gens := rfl
@[simp] theorem State.setQueue_trays (s : State) (l : UpLane) (q : List Queued) : (s.setQueue l q).trays = s.trays :=
  rfl
@[simp] theorem State.setQueue_mode (s : State) (l : UpLane) (q : List Queued) : (s.setQueue l q).mode = s.mode := rfl
@[simp] theorem State.setQueue_entries (s : State) (l : UpLane) (q : List Queued) : (s.setQueue l q).entries = s.entries :=
  rfl
@[simp] theorem State.setQueue_lastUninspected (s : State) (l : UpLane) (q : List Queued) : (s.setQueue l q).lastUninspected = s.lastUninspected :=
  rfl
@[simp] theorem State.setQueue_parsers (s : State) (l : UpLane) (q : List Queued) : (s.setQueue l q).parsers = s.parsers :=
  rfl
@[simp] theorem State.setQueue_zones (s : State) (l : UpLane) (q : List Queued) : (s.setQueue l q).zones = s.zones :=
  rfl
@[simp] theorem State.setQueue_cancel (s : State) (l : UpLane) (q : List Queued) : (s.setQueue l q).cancel = s.cancel :=
  rfl
@[simp] theorem State.setQueue_tally (s : State) (l : UpLane) (q : List Queued) : (s.setQueue l q).tally = s.tally :=
  rfl
@[simp] theorem State.setQueue_report (s : State) (l : UpLane) (q : List Queued) : (s.setQueue l q).report = s.report :=
  rfl
@[simp] theorem State.setQueue_freeCount (s : State) (l : UpLane) (q : List Queued) : (s.setQueue l q).freeCount = s.freeCount :=
  rfl

/-! ### enqueue -/

@[simp] theorem State.enqueue_pending (s : State) (l : UpLane) (q : Queued) : (s.enqueue l q).pending = s.pending :=
  rfl
@[simp] theorem State.enqueue_setup (s : State) (l : UpLane) (q : Queued) : (s.enqueue l q).setup = s.setup := rfl
@[simp] theorem State.enqueue_status (s : State) (l : UpLane) (q : Queued) : (s.enqueue l q).status = s.status := rfl
@[simp] theorem State.enqueue_gens (s : State) (l : UpLane) (q : Queued) : (s.enqueue l q).gens = s.gens := rfl
@[simp] theorem State.enqueue_trays (s : State) (l : UpLane) (q : Queued) : (s.enqueue l q).trays = s.trays := rfl
@[simp] theorem State.enqueue_mode (s : State) (l : UpLane) (q : Queued) : (s.enqueue l q).mode = s.mode := rfl
@[simp] theorem State.enqueue_entries (s : State) (l : UpLane) (q : Queued) : (s.enqueue l q).entries = s.entries :=
  rfl
@[simp] theorem State.enqueue_lastUninspected (s : State) (l : UpLane) (q : Queued) : (s.enqueue l q).lastUninspected = s.lastUninspected :=
  rfl
@[simp] theorem State.enqueue_parsers (s : State) (l : UpLane) (q : Queued) : (s.enqueue l q).parsers = s.parsers :=
  rfl
@[simp] theorem State.enqueue_zones (s : State) (l : UpLane) (q : Queued) : (s.enqueue l q).zones = s.zones := rfl
@[simp] theorem State.enqueue_cancel (s : State) (l : UpLane) (q : Queued) : (s.enqueue l q).cancel = s.cancel := rfl
@[simp] theorem State.enqueue_tally (s : State) (l : UpLane) (q : Queued) : (s.enqueue l q).tally = s.tally := rfl
@[simp] theorem State.enqueue_report (s : State) (l : UpLane) (q : Queued) : (s.enqueue l q).report = s.report := rfl
@[simp] theorem State.enqueue_freeCount (s : State) (l : UpLane) (q : Queued) : (s.enqueue l q).freeCount = s.freeCount :=
  rfl

/-! ### charge -/

@[simp] theorem State.charge_pending (s : State) (l : Lane) : (s.charge l).pending = s.pending := rfl
@[simp] theorem State.charge_setup (s : State) (l : Lane) : (s.charge l).setup = s.setup := rfl
@[simp] theorem State.charge_status (s : State) (l : Lane) : (s.charge l).status = s.status := rfl
@[simp] theorem State.charge_gens (s : State) (l : Lane) : (s.charge l).gens = s.gens := rfl
@[simp] theorem State.charge_trays (s : State) (l : Lane) : (s.charge l).trays = s.trays := rfl
@[simp] theorem State.charge_mode (s : State) (l : Lane) : (s.charge l).mode = s.mode := rfl
@[simp] theorem State.charge_entries (s : State) (l : Lane) : (s.charge l).entries = s.entries := rfl
@[simp] theorem State.charge_lastUninspected (s : State) (l : Lane) : (s.charge l).lastUninspected = s.lastUninspected :=
  rfl
@[simp] theorem State.charge_parsers (s : State) (l : Lane) : (s.charge l).parsers = s.parsers := rfl
@[simp] theorem State.charge_zones (s : State) (l : Lane) : (s.charge l).zones = s.zones := rfl
@[simp] theorem State.charge_cancel (s : State) (l : Lane) : (s.charge l).cancel = s.cancel := rfl
@[simp] theorem State.charge_tally (s : State) (l : Lane) : (s.charge l).tally = s.tally := rfl
@[simp] theorem State.charge_report (s : State) (l : Lane) : (s.charge l).report = s.report := rfl
@[simp] theorem State.charge_freeCount (s : State) (l : Lane) : (s.charge l).freeCount = s.freeCount := rfl

/-! ### send -/

@[simp] theorem State.send_pending (s : State) (r : Request) (i : Issued) : (s.send r i).pending = s.pending := rfl
@[simp] theorem State.send_setup (s : State) (r : Request) (i : Issued) : (s.send r i).setup = s.setup := rfl
@[simp] theorem State.send_status (s : State) (r : Request) (i : Issued) : (s.send r i).status = s.status := rfl
@[simp] theorem State.send_gens (s : State) (r : Request) (i : Issued) : (s.send r i).gens = s.gens := rfl
@[simp] theorem State.send_trays (s : State) (r : Request) (i : Issued) : (s.send r i).trays = s.trays := rfl
@[simp] theorem State.send_mode (s : State) (r : Request) (i : Issued) : (s.send r i).mode = s.mode := rfl
@[simp] theorem State.send_entries (s : State) (r : Request) (i : Issued) : (s.send r i).entries = s.entries := rfl
@[simp] theorem State.send_lastUninspected (s : State) (r : Request) (i : Issued) : (s.send r i).lastUninspected = s.lastUninspected :=
  rfl
@[simp] theorem State.send_parsers (s : State) (r : Request) (i : Issued) : (s.send r i).parsers = s.parsers := rfl
@[simp] theorem State.send_zones (s : State) (r : Request) (i : Issued) : (s.send r i).zones = s.zones := rfl
@[simp] theorem State.send_cancel (s : State) (r : Request) (i : Issued) : (s.send r i).cancel = s.cancel := rfl
@[simp] theorem State.send_tally (s : State) (r : Request) (i : Issued) : (s.send r i).tally = s.tally := rfl
@[simp] theorem State.send_report (s : State) (r : Request) (i : Issued) : (s.send r i).report = s.report := rfl
@[simp] theorem State.send_freeCount (s : State) (r : Request) (i : Issued) : (s.send r i).freeCount = s.freeCount :=
  rfl

end Sys2Proof.Machine
end

