-- ==== Sys2Proof/Laws/Effects.lean ====
section
/-! SUPPORT. What the shared operations do: selectors, flags, remarks, entries, and the lists of the path unit and of the
report queue. One lemma for each, to be cited in place of its definition. -/

namespace Sys2Proof.Machine

/-! ### Selectors -/

@[simp] theorem PerSide.get_set_same {α : Type} (p : PerSide α) (sd : Side) (v : α) : (p.set sd v).get sd = v := by
  cases sd <;> rfl

theorem PerSide.get_set_ne {α : Type} (p : PerSide α) {sd sd' : Side} (v : α) (h : sd' ≠ sd) :
    (p.set sd v).get sd' = p.get sd' := by
  cases sd <;> cases sd' <;> first | rfl | exact absurd rfl h

@[simp] theorem PerSide.get_map {α β : Type} (f : α → β) (p : PerSide α) (sd : Side) :
    (p.map f).get sd = f (p.get sd) := by
  cases sd <;> rfl

@[simp] theorem PerLane.get_set_same {α : Type} (p : PerLane α) (l : Lane) (v : α) : (p.set l v).get l = v := by
  cases l <;> rfl

theorem PerLane.get_set_ne {α : Type} (p : PerLane α) {l l' : Lane} (v : α) (h : l' ≠ l) :
    (p.set l v).get l' = p.get l' := by
  cases l <;> cases l' <;> first | rfl | exact absurd rfl h

@[simp] theorem PerClass.get_set_same {α : Type} (p : PerClass α) (k : Cls) (v : α) : (p.set k v).get k = v := by
  cases k <;> rfl

theorem PerClass.get_set_ne {α : Type} (p : PerClass α) {k k' : Cls} (v : α) (h : k' ≠ k) :
    (p.set k v).get k' = p.get k' := by
  cases k <;> cases k' <;> first | rfl | exact absurd rfl h

@[simp] theorem PerClass.get_mapWith {α β : Type} (f : Cls → α → β) (p : PerClass α) (k : Cls) :
    (p.mapWith f).get k = f k (p.get k) := by
  cases k <;> rfl

@[simp] theorem LaneQueues.get_set_same (q : LaneQueues) (l : UpLane) (v : List Queued) : (q.set l v).get l = v := by
  cases l <;> rfl

theorem LaneQueues.get_set_ne (q : LaneQueues) {l l' : UpLane} (v : List Queued) (h : l' ≠ l) :
    (q.set l v).get l' = q.get l' := by
  cases l <;> cases l' <;> first | rfl | exact absurd rfl h

/-! ### Lanes and queues -/

@[simp] theorem State.lane_setLane_same (s : State) (l : Lane) (u : LaneUnit) : (s.setLane l u).lane l = u := by
  simp [State.lane, State.setLane]

theorem State.lane_setLane_ne (s : State) {l l' : Lane} (u : LaneUnit) (h : l' ≠ l) :
    (s.setLane l u).lane l' = s.lane l' := by
  simp [State.lane, State.setLane, PerLane.get_set_ne _ _ h]

@[simp] theorem State.queue_setQueue_same (s : State) (l : UpLane) (v : List Queued) :
    (s.setQueue l v).path.queues.get l = v := by
  simp [State.setQueue]

theorem State.queue_setQueue_ne (s : State) {l l' : UpLane} (v : List Queued) (h : l' ≠ l) :
    (s.setQueue l v).path.queues.get l' = s.path.queues.get l' := by
  simp [State.setQueue, LaneQueues.get_set_ne _ _ h]

/-- R169: the lane map alone decides a request's lane. -/
theorem State.laneOf_of_map {s t : State} (h : t.setup.laneMap = s.setup.laneMap) (r : Request) :
    t.laneOf r = s.laneOf r := by
  simp [State.laneOf, h]

/-! ### Flags and remarks -/

theorem Flag.index_inj {f g : Flag} (h : f.index = g.index) : f = g := by
  cases f <;> cases g <;> first | rfl | (simp [Flag.index] at h)

theorem Flag.index_lt (f : Flag) : f.index < 14 := by cases f <;> decide

/-- R165: raising a flag sets it and no other. -/
theorem State.flagSet_raise (s : State) (f g : Flag) : (s.raise f).flagSet g = (decide (g = f) || s.flagSet g) := by
  simp only [State.flagSet, State.raise, Flag.bit, BitVec.getLsbD_or, BitVec.getLsbD_twoPow]
  by_cases h : g = f
  · subst h; simp [Flag.index_lt]
  · have : ¬ f.index = g.index := fun e => h (Flag.index_inj e).symm
    simp [h, this]

/-- R165: raising a flag leaves every set flag set. -/
theorem State.flagSet_raise_of_set {s : State} {g : Flag} (f : Flag) (h : s.flagSet g = true) :
    (s.raise f).flagSet g = true := by
  simp [State.flagSet_raise, h]

theorem State.flagSet_raiseIf_of_set {s : State} {g : Flag} (b : Bool) (f : Flag) (h : s.flagSet g = true) :
    (s.raiseIf b f).flagSet g = true := by
  cases b
  · exact h
  · exact State.flagSet_raise_of_set f h

theorem Remark.index_inj {k m : Remark} (h : k.index = m.index) : k = m := by
  cases k <;> cases m <;> first | rfl | (simp [Remark.index] at h)

theorem Remark.index_lt (k : Remark) : k.index < 17 := by cases k <;> decide

/-- R70: adding a remark adds it and no other. -/
theorem Entry.hasRemark_addRemark (e : Entry) (k m : Remark) :
    (e.addRemark k).hasRemark m = (decide (m = k) || e.hasRemark m) := by
  simp only [Entry.hasRemark, Entry.addRemark, BitVec.getLsbD_or, BitVec.getLsbD_twoPow]
  by_cases h : m = k
  · subst h; simp [Remark.index_lt]
  · have : ¬ k.index = m.index := fun e => h (Remark.index_inj e).symm
    simp [h, this]

/-! ### Entries -/

/-- What `entry?` answers: the oldest entry with the number. -/
theorem State.entry?_spec {s : State} {p : Nat} {e : Entry} (h : s.entry? p = some e) : e ∈ s.entries ∧ e.piece = p := by
  unfold State.entry? at h
  exact ⟨List.mem_of_find?_eq_some h, by simpa using List.find?_some h⟩

/-- Where `entry?` answers none, no entry has the number. -/
theorem State.entry?_none {s : State} {p : Nat} (h : s.entry? p = none) : ∀ e ∈ s.entries, e.piece ≠ p := by
  unfold State.entry? at h
  simpa using h

/-- A change of one entry that keeps its number leaves the numbers of the list as they were. -/
theorem State.modifyEntry_pieces (s : State) (p : Nat) {f : Entry → Entry} (hf : ∀ e, (f e).piece = e.piece) :
    (s.modifyEntry p f).entries.map Entry.piece = s.entries.map Entry.piece := by
  simp only [State.modifyEntry, List.map_map]
  refine List.map_congr_left fun e _ => ?_
  by_cases h : e.piece = p <;> simp [Function.comp, h, hf]

/-- The entry of another number is not touched by a change. -/
theorem State.entry?_modifyEntry_ne (s : State) {p q : Nat} (f : Entry → Entry) (h : q ≠ p)
    (hf : ∀ e, (f e).piece = e.piece) : (s.modifyEntry p f).entry? q = s.entry? q := by
  have key : ∀ l : List Entry,
      (l.map fun e => if e.piece = p then f e else e).find? (fun e => e.piece == q) =
        l.find? (fun e => e.piece == q) := by
    intro l
    induction l with
    | nil => rfl
    | cons e es ih =>
      rw [List.map_cons, List.find?_cons, List.find?_cons, ih]
      by_cases he : e.piece = p
      · have : (p == q) = false := by simpa using fun e => h e.symm
        simp [he, hf, this]
      · simp [he]
  exact key s.entries

/-! ### Saturating counters (R17, R126) -/

theorem satInc_le {n : Nat} (h : n ≤ counterMax) : satInc n ≤ counterMax := by
  unfold satInc; split <;> omega

theorem satInc_of_lt {n : Nat} (h : n < counterMax) : satInc n = n + 1 := by simp [satInc, h]

theorem satLine_le {n : Nat} (h : n ≤ 1024) : satLine n ≤ 1024 := by
  unfold satLine; split <;> omega

/-! ### Lists of the path unit and of the report queue -/

/-- The request that `takeFirst` takes stands in the list and passes the test; the others keep their order. -/
theorem takeFirst_spec {p : Request → Bool} {l rest : List Request} {r : Request}
    (h : takeFirst p l = some (r, rest)) :
    ∃ before after, l = before ++ r :: after ∧ rest = before ++ after ∧ p r = true ∧ ∀ q ∈ before, p q = false := by
  induction l generalizing rest with
  | nil => simp [takeFirst] at h
  | cons x xs ih =>
    unfold takeFirst at h
    by_cases hx : p x = true
    · simp only [hx, if_true, Option.some.injEq, Prod.mk.injEq] at h
      obtain ⟨rfl, rfl⟩ := h
      exact ⟨[], xs, rfl, rfl, hx, by simp⟩
    · simp only [hx, if_false, Bool.false_eq_true] at h
      cases hq : takeFirst p xs with
      | none => simp [hq] at h
      | some q =>
        obtain ⟨r', rest'⟩ := q
        simp only [hq, Option.some.injEq, Prod.mk.injEq] at h
        obtain ⟨rfl, rfl⟩ := h
        obtain ⟨b, a, rfl, rfl, hr, hb⟩ := ih hq
        refine ⟨x :: b, a, rfl, rfl, hr, ?_⟩
        intro q hq
        rcases List.mem_cons.mp hq with rfl | hq
        · simpa using hx
        · exact hb q hq

theorem takeFirst_none {p : Request → Bool} {l : List Request} (h : takeFirst p l = none) : ∀ r ∈ l, p r = false := by
  induction l with
  | nil => simp
  | cons x xs ih =>
    unfold takeFirst at h
    by_cases hx : p x = true
    · simp [hx] at h
    · simp only [hx, if_false, Bool.false_eq_true] at h
      cases hq : takeFirst p xs with
      | some q => simp [hq] at h
      | none =>
        intro r hr
        rcases List.mem_cons.mp hr with rfl | hr
        · simpa using hx
        · exact ih hq r hr

/-- R180: the matched request is the oldest with its source id and tag; the others keep their order. -/
theorem matchIssued_spec {src : BitVec 4} {tag : BitVec 8} {l rest : List Issued} {i : Issued}
    (h : matchIssued src tag l = some (i, rest)) :
    ∃ before after, l = before ++ i :: after ∧ rest = before ++ after ∧ (i.source = src ∧ i.tag = tag) ∧
      ∀ q ∈ before, ¬(q.source = src ∧ q.tag = tag) := by
  induction l generalizing rest with
  | nil => simp [matchIssued] at h
  | cons x xs ih =>
    unfold matchIssued at h
    by_cases hx : x.source = src ∧ x.tag = tag
    · rw [if_pos hx] at h
      simp only [Option.some.injEq, Prod.mk.injEq] at h
      obtain ⟨rfl, rfl⟩ := h
      exact ⟨[], xs, rfl, rfl, hx, by simp⟩
    · rw [if_neg hx] at h
      cases hq : matchIssued src tag xs with
      | none => simp [hq] at h
      | some q =>
        obtain ⟨i', rest'⟩ := q
        simp only [hq, Option.some.injEq, Prod.mk.injEq] at h
        obtain ⟨rfl, rfl⟩ := h
        obtain ⟨b, a, rfl, rfl, hr, hb⟩ := ih hq
        refine ⟨x :: b, a, rfl, rfl, hr, ?_⟩
        intro q hq
        rcases List.mem_cons.mp hq with rfl | hq
        · exact hx
        · exact hb q hq

/-- R141: the entry that leaves is the first ISSUED one of the tag; the others keep their order. -/
theorem takeIssuedRecord_spec {tag : Nat} {l rest : List ReportEntry} {c : Record}
    (h : takeIssuedRecord tag l = some (c, rest)) :
    ∃ before after, l = before ++ { record := c, state := .issued tag } :: after ∧ rest = before ++ after ∧
      ∀ q ∈ before, q.state ≠ .issued tag := by
  induction l generalizing rest with
  | nil => simp [takeIssuedRecord] at h
  | cons x xs ih =>
    unfold takeIssuedRecord at h
    by_cases hx : x.state = .issued tag
    · rw [if_pos hx] at h
      simp only [Option.some.injEq, Prod.mk.injEq] at h
      obtain ⟨rfl, rfl⟩ := h
      exact ⟨[], xs, by rw [← hx]; rfl, rfl, by simp⟩
    · rw [if_neg hx] at h
      cases hq : takeIssuedRecord tag xs with
      | none => simp [hq] at h
      | some q =>
        obtain ⟨c', rest'⟩ := q
        simp only [hq, Option.some.injEq, Prod.mk.injEq] at h
        obtain ⟨rfl, rfl⟩ := h
        obtain ⟨b, a, rfl, rfl, hb⟩ := ih hq
        refine ⟨x :: b, a, rfl, rfl, ?_⟩
        intro q hq
        rcases List.mem_cons.mp hq with rfl | hq
        · exact hx
        · exact hb q hq

/-- R140: the entry that is issued is the oldest WAITING one; the others stay as they are. -/
theorem issueOldest_spec {tag : Nat} {l l' : List ReportEntry} {c : Record} (h : issueOldest tag l = some (c, l')) :
    ∃ before after, l = before ++ { record := c, state := .waiting } :: after ∧
      l' = before ++ { record := c, state := .issued tag } :: after ∧ ∀ q ∈ before, q.state ≠ .waiting := by
  induction l generalizing l' with
  | nil => simp [issueOldest] at h
  | cons x xs ih =>
    unfold issueOldest at h
    cases hs : x.state with
    | waiting =>
      simp only [hs, Option.some.injEq, Prod.mk.injEq] at h
      obtain ⟨rfl, rfl⟩ := h
      exact ⟨[], xs, by rw [← hs]; rfl, rfl, by simp⟩
    | issued t =>
      simp only [hs] at h
      cases hq : issueOldest tag xs with
      | none => simp [hq] at h
      | some q =>
        obtain ⟨c', l''⟩ := q
        simp only [hq, Option.some.injEq, Prod.mk.injEq] at h
        obtain ⟨rfl, rfl⟩ := h
        obtain ⟨b, a, rfl, rfl, hb⟩ := ih hq
        refine ⟨x :: b, a, rfl, rfl, ?_⟩
        intro q hq
        rcases List.mem_cons.mp hq with rfl | hq
        · simp [hs]
        · exact hb q hq

/-- R182: a free tag lies in 0..7 and no injected write of the list carries it; every lower one is taken. -/
theorem freeTag_spec {l : List Issued} {t : Nat} (h : freeTag l = some t) :
    t < 8 ∧ tagTaken l t = false ∧ ∀ u < t, tagTaken l u = true := by
  unfold freeTag at h
  obtain ⟨hmem, hlow⟩ := List.find?_eq_some_iff_getElem.mp h
  obtain ⟨i, hi, hget, hbefore⟩ := hlow
  have hit : i = t := by simpa using hget
  subst hit
  have hi8 : i < 8 := by simpa using hi
  refine ⟨hi8, by simpa using hmem, ?_⟩
  intro u hu
  have := hbefore u hu
  simpa using this

end Sys2Proof.Machine
end

