-- ==== Sys2Proof/Laws/Frames.lean ====
section
/-! SUPPORT. Frames: what the blocks that watch arrivals leave alone. `InspectFrame` holds of everything a line parser, the
zone engine and the decision unit do short of opening a piece; `WatchFrame` of everything any watching block does. -/

namespace Sys2Proof.Machine

/-- A set flag stays set. -/
theorem State.KeepsFlags.refl (s : State) : s.KeepsFlags s := fun _ h => h

theorem State.KeepsFlags.trans {s t u : State} (h : s.KeepsFlags t) (k : t.KeepsFlags u) : s.KeepsFlags u :=
  fun f hf => k f (h f hf)

theorem State.KeepsFlags.of_status {s t : State} (h : t.status = s.status) : s.KeepsFlags t := by
  intro f hf; simpa [State.flagSet, h] using hf

theorem State.keepsFlags_raise (s : State) (f : Flag) : s.KeepsFlags (s.raise f) :=
  fun _ h => State.flagSet_raise_of_set f h

theorem State.keepsFlags_raiseIf (s : State) (b : Bool) (f : Flag) : s.KeepsFlags (s.raiseIf b f) :=
  fun _ h => State.flagSet_raiseIf_of_set b f h

theorem State.keepsFlags_refuse (s : State) (r : RefusalReason) : s.KeepsFlags (s.refuse r) := by
  intro f hf
  have h1 : ((s.raise .setupRefused).raiseIf (decide (r = .once)) .onceRepeat).flagSet f = true :=
    State.flagSet_raiseIf_of_set _ _ (State.flagSet_raise_of_set _ hf)
  exact h1

/-- What a watching block never touches: the waiting commands, the counter of the free value, and the queues, the held
requests, the issued list, the guard count and the upstream returns of the path unit. -/
structure WatchFrame (s t : State) : Prop where
  pending   : t.pending = s.pending
  freeCount : t.freeCount = s.freeCount
  queues    : t.path.queues = s.path.queues
  held      : t.path.held = s.path.held
  behind    : t.path.behind = s.path.behind
  issued    : t.path.issued.map Issued.unlink = s.path.issued.map Issued.unlink
  guard     : t.path.guard = s.path.guard
  upLog     : t.path.upLog = s.path.upLog

theorem WatchFrame.refl (s : State) : WatchFrame s s := ⟨rfl, rfl, rfl, rfl, rfl, rfl, rfl, rfl⟩

theorem WatchFrame.trans {s t u : State} (h : WatchFrame s t) (k : WatchFrame t u) : WatchFrame s u :=
  ⟨k.pending.trans h.pending, k.freeCount.trans h.freeCount, k.queues.trans h.queues, k.held.trans h.held,
    k.behind.trans h.behind, k.issued.trans h.issued, k.guard.trans h.guard, k.upLog.trans h.upLog⟩

theorem WatchFrame.of_path {s t : State} (hp : t.pending = s.pending) (hf : t.freeCount = s.freeCount)
    (h : t.path = s.path) : WatchFrame s t :=
  ⟨hp, hf, by rw [h], by rw [h], by rw [h], by rw [h], by rw [h], by rw [h]⟩

/-- A relation that every step of a fold keeps holds of the fold. -/
theorem foldl_frame {α σ : Type} {R : σ → σ → Prop} (hr : ∀ a, R a a) (ht : ∀ a b c, R a b → R b c → R a c)
    {f : σ → α → σ} (hf : ∀ a x, R a (f a x)) (l : List α) (a : σ) : R a (l.foldl f a) := by
  induction l generalizing a with
  | nil => exact hr a
  | cons x xs ih => exact ht _ _ _ (hf a x) (ih (f a x))

/-! ### Inspection -/

/-- What inspection writes into an entry: side records, zone records, decision part, remarks, and RUNNING to FINISHED. -/
structure Entry.Inspected (e f : Entry) : Prop where
  piece       : f.piece = e.piece
  generation  : f.generation = e.generation
  dispatch    : f.dispatch = e.dispatch
  print       : f.print = e.print
  printStatus : f.printStatus = e.printStatus
  stacker     : f.stacker = e.stacker
  age         : f.age = e.age
  disposition : f.disposition = e.disposition
  finished    : e.running = false → f.running = false

theorem Entry.Inspected.refl (e : Entry) : e.Inspected e := ⟨rfl, rfl, rfl, rfl, rfl, rfl, rfl, rfl, id⟩

theorem Entry.Inspected.trans {e f g : Entry} (h : e.Inspected f) (k : f.Inspected g) : e.Inspected g :=
  ⟨k.piece.trans h.piece, k.generation.trans h.generation, k.dispatch.trans h.dispatch, k.print.trans h.print,
    k.printStatus.trans h.printStatus, k.stacker.trans h.stacker, k.age.trans h.age,
    k.disposition.trans h.disposition, fun x => k.finished (h.finished x)⟩

/-- What the inspection of pieces that are already open leaves alone, and the numbers, generations and order of the
entries. Flags are only set; an entry's dispatch answer, print answer and print status stand; inspection does not
restart. -/
structure InspectFrame (s t : State) : Prop where
  pending   : t.pending = s.pending
  setup     : t.setup = s.setup
  trays     : t.trays = s.trays
  mode      : t.mode = s.mode
  uncounted : t.lastUninspected = s.lastUninspected
  cancel    : t.cancel = s.cancel
  tally     : t.tally = s.tally
  report    : t.report = s.report
  path      : t.path = s.path
  freeCount : t.freeCount = s.freeCount
  newest    : t.gens.newest = s.gens.newest
  staged    : t.gens.staged = s.gens.staged
  dirty     : t.gens.dirty = s.gens.dirty
  older     : t.gens.older.Sublist s.gens.older
  reasons   : t.status.setupReason = s.status.setupReason ∧ t.status.runReason = s.status.runReason
  flags     : s.KeepsFlags t
  entries   : List.Forall₂ Entry.Inspected s.entries t.entries

theorem InspectFrame.refl (s : State) : InspectFrame s s :=
  ⟨rfl, rfl, rfl, rfl, rfl, rfl, rfl, rfl, rfl, rfl, rfl, rfl, rfl, List.Sublist.refl _, ⟨rfl, rfl⟩, .refl s,
    List.forall₂_same.mpr fun e _ => .refl e⟩

theorem forall₂_comp {α : Type} {R : α → α → Prop} (ht : ∀ a b c, R a b → R b c → R a c) {l m n : List α}
    (h : List.Forall₂ R l m) (k : List.Forall₂ R m n) : List.Forall₂ R l n := by
  induction h generalizing n with
  | nil => cases k; exact .nil
  | cons hab _ ih =>
    cases k with
    | cons hbc k' => exact .cons (ht _ _ _ hab hbc) (ih k')

theorem InspectFrame.trans {s t u : State} (h : InspectFrame s t) (k : InspectFrame t u) : InspectFrame s u where
  pending := k.pending.trans h.pending
  setup := k.setup.trans h.setup
  trays := k.trays.trans h.trays
  mode := k.mode.trans h.mode
  uncounted := k.uncounted.trans h.uncounted
  cancel := k.cancel.trans h.cancel
  tally := k.tally.trans h.tally
  report := k.report.trans h.report
  path := k.path.trans h.path
  freeCount := k.freeCount.trans h.freeCount
  newest := k.newest.trans h.newest
  staged := k.staged.trans h.staged
  dirty := k.dirty.trans h.dirty
  older := k.older.trans h.older
  reasons := ⟨k.reasons.1.trans h.reasons.1, k.reasons.2.trans h.reasons.2⟩
  flags := h.flags.trans k.flags
  entries := forall₂_comp (R := Entry.Inspected) (fun _ _ _ => Entry.Inspected.trans) h.entries k.entries

/-- The numbers of the entries, in order, are as they were. -/
theorem InspectFrame.pieces {s t : State} (h : InspectFrame s t) :
    t.entries.map Entry.piece = s.entries.map Entry.piece := by
  have key : ∀ {l m : List Entry}, List.Forall₂ Entry.Inspected l m → m.map Entry.piece = l.map Entry.piece := by
    intro l m hlm
    induction hlm with
    | nil => rfl
    | cons hab _ ih => simp [hab.piece, ih]
  exact key h.entries

theorem InspectFrame.watch {s t : State} (h : InspectFrame s t) : WatchFrame s t :=
  .of_path h.pending h.freeCount h.path

theorem State.withParsers_inspect (s : State) (ps : PerSide Parser) : InspectFrame s { s with parsers := ps } :=
  ⟨rfl, rfl, rfl, rfl, rfl, rfl, rfl, rfl, rfl, rfl, rfl, rfl, rfl, List.Sublist.refl _, ⟨rfl, rfl⟩, .of_status rfl,
    List.forall₂_same.mpr fun e _ => .refl e⟩

theorem State.withZones_inspect (s : State) (zs : PerSide ZoneWork) : InspectFrame s { s with zones := zs } :=
  ⟨rfl, rfl, rfl, rfl, rfl, rfl, rfl, rfl, rfl, rfl, rfl, rfl, rfl, List.Sublist.refl _, ⟨rfl, rfl⟩, .of_status rfl,
    List.forall₂_same.mpr fun e _ => .refl e⟩

theorem State.raise_inspect (s : State) (f : Flag) : InspectFrame s (s.raise f) :=
  ⟨rfl, rfl, rfl, rfl, rfl, rfl, rfl, rfl, rfl, rfl, rfl, rfl, rfl, List.Sublist.refl _, ⟨rfl, rfl⟩,
    s.keepsFlags_raise f, List.forall₂_same.mpr fun e _ => .refl e⟩

theorem State.raiseIf_inspect (s : State) (b : Bool) (f : Flag) : InspectFrame s (s.raiseIf b f) := by
  cases b
  · exact .refl s
  · exact s.raise_inspect f

theorem State.setParser_inspect (s : State) (sd : Side) (p : Parser) : InspectFrame s (s.setParser sd p) :=
  s.withParsers_inspect _

theorem State.setZone_inspect (s : State) (sd : Side) (z : ZoneWork) : InspectFrame s (s.setZone sd z) :=
  s.withZones_inspect _

theorem State.modifyEntry_inspect (s : State) (p : Nat) {f : Entry → Entry} (hf : ∀ e, Entry.Inspected e (f e)) :
    InspectFrame s (s.modifyEntry p f) := by
  refine ⟨rfl, rfl, rfl, rfl, rfl, rfl, rfl, rfl, rfl, rfl, rfl, rfl, rfl, List.Sublist.refl _, ⟨rfl, rfl⟩,
    .of_status rfl, ?_⟩
  unfold State.modifyEntry
  induction s.entries with
  | nil => exact .nil
  | cons e es ih =>
    refine .cons ?_ ih
    by_cases h : e.piece = p
    · simpa [h] using hf e
    · simpa [h] using Entry.Inspected.refl e

theorem Entry.addRemark_inspected (e : Entry) (k : Remark) : e.Inspected (e.addRemark k) :=
  ⟨rfl, rfl, rfl, rfl, rfl, rfl, rfl, rfl, id⟩

theorem Entry.addRemarkIf_inspected (e : Entry) (b : Bool) (k : Remark) : e.Inspected (e.addRemarkIf b k) := by
  cases b
  · exact .refl e
  · exact e.addRemark_inspected k

theorem Entry.modifySide_inspected (e : Entry) (sd : Side) (f : SideRecord → SideRecord) :
    e.Inspected (e.modifySide sd f) :=
  ⟨rfl, rfl, rfl, rfl, rfl, rfl, rfl, rfl, id⟩

theorem Entry.modifyCorner_inspected (e : Entry) (c : Corner) (f : Cls → ZoneRecord → ZoneRecord) :
    e.Inspected (e.modifyCorner c f) :=
  ⟨rfl, rfl, rfl, rfl, rfl, rfl, rfl, rfl, id⟩

theorem Entry.decide_inspected (e : Entry) (d : Option Decision) : e.Inspected { e with decision := d } :=
  ⟨rfl, rfl, rfl, rfl, rfl, rfl, rfl, rfl, id⟩

theorem Entry.finish_inspected (e : Entry) : e.Inspected { e with running := false } :=
  ⟨rfl, rfl, rfl, rfl, rfl, rfl, rfl, rfl, fun _ => rfl⟩

theorem Entry.addToCorner_inspected (e : Entry) (st : Settings) (c : Corner) (x extent : Nat) (b : PerClass Tally) :
    e.Inspected (e.addToCorner st c x extent b) := by
  unfold Entry.addToCorner
  exact e.modifyCorner_inspected _ _

theorem Entry.addLine_inspected (e : Entry) (st : Settings) (sd : Side) (en : End) (x extent : Nat)
    (q : LineTallies) : e.Inspected (e.addLine st sd en x extent q) := by
  unfold Entry.addLine
  exact (e.addToCorner_inspected _ _ _ _ _).trans (Entry.addToCorner_inspected _ _ _ _ _ _)

theorem Entry.completeEnd_inspected (e : Entry) (st : Settings) (sd : Side) (en : End) :
    e.Inspected (e.completeEnd st sd en) := by
  unfold Entry.completeEnd
  exact (e.modifyCorner_inspected _ _).trans (Entry.modifyCorner_inspected _ _ _)

theorem Entry.buildTrailing_inspected (e : Entry) (st : Settings) (sd : Side) (n : Nat) (ring : List RingEntry) :
    e.Inspected (e.buildTrailing st sd n ring) := by
  unfold Entry.buildTrailing
  refine Entry.Inspected.trans ?_ (Entry.completeEnd_inspected _ _ _ _)
  exact foldl_frame (R := Entry.Inspected) Entry.Inspected.refl (fun _ _ _ => Entry.Inspected.trans)
    (fun e (q : RingEntry) => e.addLine_inspected st sd .trail q.x q.extent q.tallies) _ e

theorem Entry.dropUndone_inspected (e : Entry) : e.Inspected e.dropUndone :=
  ⟨rfl, rfl, rfl, rfl, rfl, rfl, rfl, rfl, id⟩

theorem Entry.takeFault_inspected (e : Entry) (f : PieceFault) : e.Inspected (e.takeFault f) := by
  unfold Entry.takeFault
  split
  · exact ⟨rfl, rfl, rfl, rfl, rfl, rfl, rfl, rfl, id⟩
  · exact (e.addRemark_inspected _).trans (Entry.addRemark_inspected _ _)

theorem Entry.takeFull_inspected (e : Entry) (st : Settings) (ts : TraySet) : e.Inspected (e.takeFull st ts).1 := by
  unfold Entry.takeFull
  simp only []
  split
  · exact e.addRemarkIf_inspected _ _
  · exact Entry.Inspected.trans (e.decide_inspected _) (Entry.addRemarkIf_inspected _ _ _)

theorem Entry.takeEarly_inspected (e : Entry) (st : Settings) (ts : TraySet) (sd : Side) :
    e.Inspected (e.takeEarly st ts sd).1 := by
  unfold Entry.takeEarly
  split
  · split
    · exact Entry.Inspected.trans (Entry.Inspected.trans (e.decide_inspected _) (Entry.addRemark_inspected _ _))
        (Entry.addRemarkIf_inspected _ _ _)
    · exact .refl e
  · exact .refl e

theorem State.releaseGenerations_inspect (s : State) : InspectFrame s s.releaseGenerations :=
  ⟨rfl, rfl, rfl, rfl, rfl, rfl, rfl, rfl, rfl, rfl, rfl, rfl, rfl, List.filter_sublist, ⟨rfl, rfl⟩, .of_status rfl,
    List.forall₂_same.mpr fun e _ => .refl e⟩

/-- R21, R72: the end of an inspection. -/
theorem State.finishInspection_inspect (s : State) (p : Nat) : InspectFrame s (s.finishInspection p) := by
  unfold State.finishInspection
  have h := s.modifyEntry_inspect p (f := fun e => { e with running := false }) Entry.finish_inspected
  exact (h.trans (State.withParsers_inspect _ _)).trans (State.releaseGenerations_inspect _)

/-- R43: the drop of zone work. -/
theorem State.dropZoneWork_inspect (s : State) (p : Nat) : InspectFrame s (s.dropZoneWork p) := by
  unfold State.dropZoneWork
  exact (s.withZones_inspect _).trans (State.modifyEntry_inspect _ _ Entry.dropUndone_inspected)

/-- R64 to R66: a piece fault. -/
theorem State.pieceFault_inspect (s : State) (p : Nat) (f : PieceFault) : InspectFrame s (s.pieceFault p f) := by
  unfold State.pieceFault
  split
  · exact .refl s
  · have h := s.modifyEntry_inspect p (f := Entry.takeFault f) fun e => e.takeFault_inspected f
    simp only []
    split
    · exact (h.trans (State.finishInspection_inspect _ _)).trans (State.dropZoneWork_inspect _ _)
    · exact h

theorem State.faultLimitCheck_inspect (s : State) (p : Nat) : InspectFrame s (s.faultLimitCheck p) := by
  unfold State.faultLimitCheck
  split
  · exact .refl s
  · split
    · exact s.pieceFault_inspect _ _
    · exact .refl s

/-- R61 to R63: a leading-complete notice. -/
theorem State.leadingNotice_inspect (s : State) (sd : Side) (p : Nat) : InspectFrame s (s.leadingNotice sd p) := by
  unfold State.leadingNotice
  split
  · exact .refl s
  · exact (s.modifyEntry_inspect p fun e => e.takeEarly_inspected _ _ _).trans (State.raiseIf_inspect _ _ _)

/-- R54, R55: a side-closed notice. -/
theorem State.closedNotice_inspect (s : State) (p : Nat) : InspectFrame s (s.closedNotice p) := by
  unfold State.closedNotice
  split
  · exact .refl s
  · split
    · exact ((s.modifyEntry_inspect p fun e => e.takeFull_inspected _ _).trans (State.raiseIf_inspect _ _ _)).trans
        (State.finishInspection_inspect _ _)
    · exact .refl s

/-- R35: leading completion. -/
theorem State.completeLeading_inspect (s : State) (sd : Side) (p : Nat) (st : Settings) :
    InspectFrame s (s.completeLeading sd p st) := by
  unfold State.completeLeading
  exact ((s.modifyEntry_inspect p fun e => e.completeEnd_inspected _ _ _).trans (State.setZone_inspect _ _ _)).trans
    (State.leadingNotice_inspect _ _ _)

/-- R32, R33: a line handover. -/
theorem State.handLine_inspect (s : State) (sd : Side) (p x extent : Nat) (faulted : Bool) :
    InspectFrame s (s.handLine sd p x extent faulted) := by
  unfold State.handLine
  split
  · exact .refl s
  · simp only []
    split
    · exact .refl s
    · refine InspectFrame.trans ?_ (State.setZone_inspect _ _ _)
      have h1 : ∀ (t : State) (b : Prop) [Decidable b] (q : LineTallies) (st : Settings),
          InspectFrame t (if b then t.modifyEntry p (Entry.addLine st sd .lead x extent q) else t) := by
        intro t b _ q st
        split
        · exact t.modifyEntry_inspect p fun e => e.addLine_inspected _ _ _ _ _ _
        · exact .refl t
      have h2 : ∀ (t : State) (b : Prop) [Decidable b] (st : Settings),
          InspectFrame t (if b then t.completeLeading sd p st else t) := by
        intro t b _ st
        split
        · exact t.completeLeading_inspect _ _ _
        · exact .refl t
      exact ((s.setZone_inspect sd _).trans (h1 _ _ _ _)).trans (h2 _ _ _)

/-- R31: a sample. -/
theorem State.handSample_inspect (s : State) (sd : Side) (ln : Line) (w : Nat) :
    InspectFrame s (s.handSample sd ln w) := by
  unfold State.handSample
  split
  · exact .refl s
  · exact s.setZone_inspect _ _

/-- R37: a side close with the inspection running. -/
theorem State.zoneClose_inspect (s : State) (sd : Side) (p n : Nat) (st : Settings) :
    InspectFrame s (s.zoneClose sd p n st) := by
  unfold State.zoneClose
  refine InspectFrame.trans ?_ (State.closedNotice_inspect _ _)
  refine InspectFrame.trans ?_ (State.setZone_inspect _ _ _)
  refine InspectFrame.trans ?_ (State.modifyEntry_inspect _ _ fun e => e.buildTrailing_inspected _ _ _ _)
  split
  · exact s.completeLeading_inspect _ _ _
  · exact .refl s

/-- R18: a side close. -/
theorem State.sideClose_inspect (s : State) (sd : Side) (p x : Nat) : InspectFrame s (s.sideClose sd p x) := by
  unfold State.sideClose
  split
  · exact .refl s
  · split
    · have h := s.modifyEntry_inspect p (f := Entry.modifySide sd fun r => { r with state := .closed, n := x + 1 })
        fun e => e.modifySide_inspected _ _
      simp only []
      split
      · exact h.trans (State.zoneClose_inspect _ _ _ _ _)
      · exact h
    · exact .refl s

theorem State.zoneOpen_inspect (s : State) (sd : Side) (p : Nat) : InspectFrame s (s.zoneOpen sd p) := by
  unfold State.zoneOpen
  split
  · split
    · exact s.setZone_inspect _ _
    · exact .refl s
  · exact .refl s

theorem State.markMissing_inspect (s : State) (sd : Side) (p : Nat) : InspectFrame s (State.markMissing sd s p) :=
  (s.modifyEntry_inspect p fun e => e.modifySide_inspected _ _).trans (State.pieceFault_inspect _ _ _)

/-- R76: the marking of missing sides. -/
theorem State.markMissingSides_inspect (s : State) (sd : Side) (p : Nat) :
    InspectFrame s (s.markMissingSides sd p) :=
  foldl_frame InspectFrame.refl (fun _ _ _ => InspectFrame.trans) (fun s p => s.markMissing_inspect sd p) _ s

/-! ### Line parsers, short of an open -/

theorem State.overlong_inspect (s : State) (sd : Side) (p : Nat) : InspectFrame s (s.overlong sd p) :=
  (s.modifyEntry_inspect p fun e => e.modifySide_inspected _ _).trans (State.pieceFault_inspect _ _ _)

theorem State.handFaulted_inspect (s : State) (sd : Side) (p x extent : Nat) (running : Bool) :
    InspectFrame s (s.handFaulted sd p x extent running) := by
  unfold State.handFaulted
  split
  · exact (s.handLine_inspect _ _ _ _ _).trans (State.faultLimitCheck_inspect _ _)
  · exact .refl s

/-- R7: a MALFORMED header. -/
theorem State.malformedHeader_inspect (s : State) (sd : Side) (h : Header) :
    InspectFrame s (s.malformedHeader sd h) := by
  have h0 := (s.raise_inspect .lineFault).trans (State.setParser_inspect _ sd .skipping)
  unfold State.malformedHeader
  simp only []
  split
  · exact h0
  · split
    · split
      · exact h0.trans (State.overlong_inspect _ _ _)
      · exact (h0.trans (State.modifyEntry_inspect _ _ fun e => e.modifySide_inspected _ _)).trans
          (State.handFaulted_inspect _ _ _ _ _ _)
    · exact h0

/-- R8: a stray header. -/
theorem State.strayHeader_inspect (s : State) (sd : Side) (b : Bool) (h : Header) :
    InspectFrame s (s.strayHeader sd b h) :=
  (s.raiseIf_inspect _ _).trans (State.setParser_inspect _ _ _)

/-- R10: LINE_LIMIT. -/
theorem State.lineLimitHeader_inspect (s : State) (sd : Side) (h : Header) :
    InspectFrame s (s.lineLimitHeader sd h) :=
  (s.overlong_inspect _ _).trans (State.setParser_inspect _ _ _)

/-- R10: MISMATCH. -/
theorem State.mismatchHeader_inspect (s : State) (sd : Side) (h : Header) :
    InspectFrame s (s.mismatchHeader sd h) := by
  have h0 := s.raise_inspect .lineFault
  unfold State.mismatchHeader
  simp only []
  split
  · exact h0.trans (State.setParser_inspect _ _ _)
  · refine InspectFrame.trans ?_ (State.setParser_inspect _ _ _)
    split
    · exact (h0.trans (State.modifyEntry_inspect _ _ fun e => e.modifySide_inspected _ _)).trans
        (State.handFaulted_inspect _ _ _ _ _ _)
    · have h1 := h0.trans (State.modifyEntry_inspect _ h.piece
        (f := Entry.modifySide sd fun r => { r with faulted := satLine r.faulted })
        fun e => e.modifySide_inspected _ _)
      split
      · exact h1.trans (State.faultLimitCheck_inspect _ _)
      · exact h1

/-- R11: an accepted header. -/
theorem State.acceptHeader_inspect (s : State) (sd : Side) (slot : Nat) (h : Header) :
    InspectFrame s (s.acceptHeader sd slot h) := by
  unfold State.acceptHeader
  split
  · exact .refl s
  · simp only []
    have h0 : ∀ (f : SideRecord → SideRecord) (p : Parser),
        InspectFrame s ((s.modifyEntry h.piece (Entry.modifySide sd f)).setParser sd p) := fun f p =>
      (s.modifyEntry_inspect _ fun e => e.modifySide_inspected _ _).trans (State.setParser_inspect _ _ _)
    have h1 : ∀ t : State, InspectFrame t (if h.lead = true then t.zoneOpen sd h.piece else t) := by
      intro t
      split
      · exact t.zoneOpen_inspect _ _
      · exact .refl t
    split
    · exact ((h0 _ _).trans (h1 _)).trans (State.pieceFault_inspect _ _ _)
    · exact (h0 _ _).trans (h1 _)

/-- R9: truncation. -/
theorem State.truncateOpen_inspect (s : State) (sd : Side) (p : Nat) : InspectFrame s (s.truncateOpen sd p) := by
  unfold State.truncateOpen
  split
  · exact .refl s
  · exact (s.modifyEntry_inspect _ fun e => e.modifySide_inspected _ _).trans (State.pieceFault_inspect _ _ _)

/-- R9: a side of a known piece opens. -/
theorem State.sideOpenHeader_inspect (s : State) (sd : Side) (slot : Nat) (h : Header) :
    InspectFrame s (s.sideOpenHeader sd slot h) :=
  ((s.truncateOpen_inspect _ _).trans (State.markMissingSides_inspect _ _ _)).trans
    (State.acceptHeader_inspect _ _ _ _)

theorem State.closeIfTrail_inspect (s : State) (sd : Side) (ln : Line) : InspectFrame s (s.closeIfTrail sd ln) := by
  unfold State.closeIfTrail
  split
  · exact s.sideClose_inspect _ _ _
  · exact .refl s

/-- R15: line completion. -/
theorem State.completeLine_inspect (s : State) (sd : Side) (ln : Line) : InspectFrame s (s.completeLine sd ln) := by
  unfold State.completeLine
  refine InspectFrame.trans ?_ (State.closeIfTrail_inspect _ _ _)
  have h0 := s.setParser_inspect sd .waitHeader
  split
  · exact h0.trans (State.handLine_inspect _ _ _ _ _ _)
  · exact h0

/-- R16: a line fault. -/
theorem State.faultLine_inspect (s : State) (sd : Side) (ln : Line) : InspectFrame s (s.faultLine sd ln) := by
  unfold State.faultLine
  refine InspectFrame.trans ?_ (State.closeIfTrail_inspect _ _ _)
  refine InspectFrame.trans ?_ (State.handFaulted_inspect _ _ _ _ _ _)
  exact ((s.raise_inspect _).trans (State.setParser_inspect _ _ _)).trans
    (State.modifyEntry_inspect _ _ fun e => e.modifySide_inspected _ _)

/-- R12: a sample in order. -/
theorem State.takeSample_inspect (s : State) (sd : Side) (w : Nat) : InspectFrame s (State.takeSample sd s w) := by
  unfold State.takeSample
  split
  · simp only []
    have h0 : ∀ (b : Bool) (ln : Line), InspectFrame s (if b = true then s.handSample sd ln w else s) := by
      intro b ln
      split
      · exact s.handSample_inspect _ _ _
      · exact .refl s
    split
    · exact (h0 _ _).trans (State.completeLine_inspect _ _ _)
    · exact (h0 _ _).trans (State.setParser_inspect _ _ _)
  · exact .refl s

/-- R12 to R14: a beat that is no header's. -/
theorem State.takeBeat_inspect (s : State) (sd : Side) (r : Request) (aligned : Bool) (slotBase b : Nat) :
    InspectFrame s (State.takeBeat sd r aligned slotBase s b) := by
  unfold State.takeBeat
  split
  · split
    · exact s.faultLine_inspect _ _
    · split
      · exact .refl s
      · split
        · split
          · exact foldl_frame InspectFrame.refl (fun _ _ _ => InspectFrame.trans)
              (fun s w => s.takeSample_inspect sd w) _ s
          · exact s.faultLine_inspect _ _
        · exact s.faultLine_inspect _ _
  · exact .refl s

theorem State.faultInLine_inspect (s : State) (sd : Side) : InspectFrame s (s.faultInLine sd) := by
  unfold State.faultInLine
  split
  · exact s.faultLine_inspect _ _
  · exact .refl s

theorem State.faultStraySlot_inspect (s : State) (sd : Side) (slot : Nat) : InspectFrame s (s.faultStraySlot sd slot) := by
  unfold State.faultStraySlot
  split
  · split
    · exact s.faultLine_inspect _ _
    · exact .refl s
  · exact .refl s

end Sys2Proof.Machine
end

