-- ==== Sys2Proof/Laws/Watch.lean ====
section
/-! SUPPORT. Frames of the track table, the fill-in unit, cancel control and the setup capture unit, and what they give the
path unit: whatever a watching block does by itself, the queues and the held requests are as they were (`WatchFrame`), and
an arrival does no more than that and what the held requests it moves do (`ArrivalRel`). -/

namespace Sys2Proof.Machine

/-- What the track table, the line parsers and the fill-in unit leave alone. -/
structure TrackFrame (s t : State) : Prop where
  pending   : t.pending = s.pending
  setup     : t.setup = s.setup
  cancel    : t.cancel = s.cancel
  path      : t.path = s.path
  freeCount : t.freeCount = s.freeCount
  staged    : t.gens.staged = s.gens.staged
  flags     : s.KeepsFlags t

theorem TrackFrame.refl (s : State) : TrackFrame s s := ⟨rfl, rfl, rfl, rfl, rfl, rfl, .refl s⟩

theorem TrackFrame.trans {s t u : State} (h : TrackFrame s t) (k : TrackFrame t u) : TrackFrame s u :=
  ⟨k.pending.trans h.pending, k.setup.trans h.setup, k.cancel.trans h.cancel, k.path.trans h.path,
    k.freeCount.trans h.freeCount, k.staged.trans h.staged, h.flags.trans k.flags⟩

theorem InspectFrame.track {s t : State} (h : InspectFrame s t) : TrackFrame s t :=
  ⟨h.pending, h.setup, h.cancel, h.path, h.freeCount, h.staged, h.flags⟩

theorem TrackFrame.watch {s t : State} (h : TrackFrame s t) : WatchFrame s t := .of_path h.pending h.freeCount h.path

/-- A change that leaves the flags alone. -/
theorem TrackFrame.of_status {s t : State} (hp : t.pending = s.pending) (hs : t.setup = s.setup)
    (hc : t.cancel = s.cancel) (hpath : t.path = s.path) (hf : t.freeCount = s.freeCount)
    (hg : t.gens.staged = s.gens.staged) (hst : t.status = s.status) : TrackFrame s t :=
  ⟨hp, hs, hc, hpath, hf, hg, .of_status hst⟩

/-! ### Track table -/

theorem State.applyStagedIfDirty_track (s : State) : TrackFrame s s.applyStagedIfDirty := by
  unfold State.applyStagedIfDirty
  split
  · exact .of_status rfl rfl rfl rfl rfl rfl rfl
  · exact .refl s

theorem State.enterStandby_track (s : State) : TrackFrame s s.enterStandby := by
  unfold State.enterStandby
  exact TrackFrame.trans (t := ({ s with mode := .standby } : State).idleInspection)
    (.of_status rfl rfl rfl rfl rfl rfl rfl) (State.applyStagedIfDirty_track _)

theorem State.executeClose_track (s : State) (r : CloseReason) (m : SealMark) : TrackFrame s (s.executeClose r m) :=
  .of_status (by simp) (by simp) (by simp) (by simp) (by simp) (by simp) (by simp)

theorem State.requestClose_track (s : State) (r : CloseReason) : TrackFrame s (s.requestClose r) :=
  .of_status (by simp) (by simp) (by simp) (by simp) (by simp) (by simp) (by simp)

theorem State.limitCheck_track (s : State) : TrackFrame s s.limitCheck :=
  .of_status (by simp) (by simp) (by simp) (by simp) (by simp) (by simp) (by simp)

theorem State.formPieceRecord_keepsFlags (s : State) (e : Entry) (d : Disposition) :
    s.KeepsFlags (s.formPieceRecord e d) := by
  unfold State.formPieceRecord
  simp only []
  split
  · exact .of_status rfl
  · exact fun f hf => State.flagSet_raise_of_set (s := { s with report := { s.report with seq := s.report.seq + 1 } }) _ hf

theorem State.formPieceRecord_track (s : State) (e : Entry) (d : Disposition) :
    TrackFrame s (s.formPieceRecord e d) :=
  ⟨by simp, by simp, by simp, by simp, by simp, by simp, s.formPieceRecord_keepsFlags e d⟩

/-- R90: a retirement. -/
theorem State.retire_track (s : State) (c : RetireCause) (p : Nat) : TrackFrame s (s.retire c p) := by
  unfold State.retire
  split
  · exact .refl s
  · simp only []
    refine TrackFrame.trans ?_ (State.limitCheck_track _)
    refine TrackFrame.trans ?_ (State.formPieceRecord_track _ _ _)
    exact .of_status rfl rfl rfl rfl rfl rfl rfl

theorem State.raise_track (s : State) (f : Flag) : TrackFrame s (s.raise f) := (s.raise_inspect f).track

theorem State.raiseIf_track (s : State) (b : Bool) (f : Flag) : TrackFrame s (s.raiseIf b f) :=
  (s.raiseIf_inspect b f).track

/-- R74: forcing out. -/
theorem State.forceOut_track (s : State) : TrackFrame s s.forceOut := by
  unfold State.forceOut
  split
  · exact .refl s
  · split
    · exact (s.retire_track _ _).trans (State.raise_track _ _)
    · exact .refl s

theorem State.generationAtOpen_track (s : State) : TrackFrame s s.generationAtOpen := by
  unfold State.generationAtOpen
  split
  · exact .of_status rfl rfl rfl rfl rfl rfl rfl
  · exact .refl s

/-- R73: a piece open. -/
theorem State.openEntry_track (s : State) (p : Nat) : TrackFrame s (s.openEntry p) := by
  unfold State.openEntry
  exact (s.forceOut_track.trans (State.generationAtOpen_track _)).trans (.of_status rfl rfl rfl rfl rfl rfl rfl)

theorem State.countUninspected_track (s : State) (p : Nat) : TrackFrame s (s.countUninspected p) := by
  unfold State.countUninspected
  split
  · exact .refl s
  · exact .of_status rfl rfl rfl rfl rfl rfl rfl

theorem State.drainEnd_track (s : State) : TrackFrame s s.drainEnd :=
  (s.requestClose_track _).trans (State.enterStandby_track _)

theorem State.drainEndIfDue_track (s : State) : TrackFrame s s.drainEndIfDue := by
  unfold State.drainEndIfDue
  split
  · exact s.drainEnd_track
  · exact .refl s

theorem State.retireAged_track (s : State) : TrackFrame s s.retireAged :=
  foldl_frame TrackFrame.refl (fun _ _ _ => TrackFrame.trans)
    (fun s p => (s.retire_track .lost p).trans (State.raise_track _ _)) _ s

theorem State.modifyEntry_track (s : State) (p : Nat) (f : Entry → Entry) : TrackFrame s (s.modifyEntry p f) :=
  .of_status rfl rfl rfl rfl rfl rfl rfl

/-- R87, R89: an exit word that passed. -/
theorem State.exit_track (s : State) (p st : Nat) (j : Bool) : TrackFrame s (s.exit p st j) := by
  unfold State.exit
  have h := (s.modifyEntry_track p (Entry.takeExit st j)).trans (State.retire_track _ .exit p)
  have h2 : ∀ (t : State) (l : List Nat), TrackFrame t (t.ageOlder l) := fun t l =>
    .of_status rfl rfl rfl rfl rfl rfl rfl
  exact ((h.trans (h2 _ _)).trans (State.retireAged_track _)).trans (State.drainEndIfDue_track _)

/-- R86: one exit word. -/
theorem State.exitWord_track (gate : Option Nat) (r : Request) (base : Nat) (s : State) (j : Nat) :
    TrackFrame s (State.exitWord gate r base s j) := by
  unfold State.exitWord
  split
  · exact s.raise_track _
  · split
    · exact s.raise_track _
    · simp only []
      split
      · exact s.raise_track _
      · split
        · exact s.raise_track _
        · exact s.exit_track _ _ _

/-- R86: a write's part in the exit window. -/
theorem State.takeExitWrite_track (gate : Option Nat) (base : Nat) (r : Request) (s : State) :
    TrackFrame s (s.takeExitWrite gate base r) := by
  unfold State.takeExitWrite
  split
  · exact .refl s
  · exact foldl_frame TrackFrame.refl (fun _ _ _ => TrackFrame.trans) (State.exitWord_track gate r base) _ s

/-! ### Line parsers -/

theorem State.newPieceHeader_track (s : State) (sd : Side) (slot : Nat) (h : Header) :
    TrackFrame s (s.newPieceHeader sd slot h) := by
  have h0 := (s.truncateOpen_inspect sd h.piece).track
  unfold State.newPieceHeader
  simp only []
  split
  · exact ((h0.trans (State.openEntry_track _ _)).trans (State.markMissingSides_inspect _ _ _).track).trans
      (State.acceptHeader_inspect _ _ _ _).track
  · exact (h0.trans (State.countUninspected_track _ _)).trans (State.setParser_inspect _ _ _).track

/-- R6: a readable header. -/
theorem State.takeHeader_track (s : State) (sd : Side) (slot : Nat) (h : Header) :
    TrackFrame s (s.takeHeader sd slot h) := by
  unfold State.takeHeader
  split
  · exact (s.malformedHeader_inspect _ _).track
  · exact (s.strayHeader_inspect _ _ _).track
  · exact s.newPieceHeader_track _ _ _
  · exact (s.sideOpenHeader_inspect _ _ _).track
  · exact (s.strayHeader_inspect _ _ _).track
  · exact (s.lineLimitHeader_inspect _ _).track
  · exact (s.mismatchHeader_inspect _ _).track
  · exact (s.acceptHeader_inspect _ _ _).track

theorem State.headerWrite_track (s : State) (sd : Side) (r : Request) (aligned : Bool) (slotBase slot : Nat) :
    TrackFrame s (s.headerWrite sd r aligned slotBase slot) := by
  have h0 := (s.faultInLine_inspect sd).track
  unfold State.headerWrite
  simp only []
  split
  · exact h0.trans (State.takeHeader_track _ _ _ _)
  · exact (h0.trans (State.raise_track _ _)).trans (State.setParser_inspect _ _ _).track

/-- R2: an image write. -/
theorem State.takeImageWrite_track (s : State) (sd : Side) (base : Nat) (r : Request) :
    TrackFrame s (s.takeImageWrite sd base r) := by
  unfold State.takeImageWrite
  simp only []
  have hb : ∀ (t : State) (aligned : Bool) (slotBase : Nat) (l : List Nat),
      TrackFrame t (l.foldl (State.takeBeat sd r aligned slotBase) t) := fun t aligned slotBase l =>
    foldl_frame TrackFrame.refl (fun _ _ _ => TrackFrame.trans)
      (fun s b => (s.takeBeat_inspect sd r aligned slotBase b).track) l t
  split
  · exact (s.headerWrite_track _ _ _ _ _).trans (hb _ _ _ _)
  · exact (s.faultStraySlot_inspect _ _).track.trans (hb _ _ _ _)

theorem State.offerImage_track (s : State) (sources : Option SourceTable) (sd : Side) (base : Nat) (r : Request) :
    TrackFrame s (s.offerImage sources sd base r) := by
  unfold State.offerImage
  split
  · exact s.takeImageWrite_track _ _ _
  · exact .refl s

/-! ### Fill-in unit -/

/-- R97 to R101: a dispatch read of a matched entry. -/
theorem State.answerDispatch_track (s : State) (e : Entry) : TrackFrame s (s.answerDispatch e).1 := by
  unfold State.answerDispatch
  split
  · exact .refl s
  · split
    · exact s.modifyEntry_track _ _
    · exact (s.modifyEntry_track _ _).trans (State.raise_track _ _)

/-- R114 to R117: a print read of a matched entry. -/
theorem State.answerPrint_track (s : State) (e : Entry) : TrackFrame s (s.answerPrint e).1 := by
  unfold State.answerPrint
  split
  · exact .refl s
  · exact s.modifyEntry_track _ _

theorem State.dispatchSlot_track (gate : Option Nat) (r : Request) (base : Nat) (acc : State × FillPlan) (j : Nat) :
    TrackFrame acc.1 (State.dispatchSlot gate r base acc j).1 := by
  unfold State.dispatchSlot
  split
  · exact .refl _
  · split
    · exact .refl _
    · exact State.answerDispatch_track _ _

theorem State.printSlot_track (printer : Option Nat) (r : Request) (base : Nat) (acc : State × FillPlan) (j : Nat) :
    TrackFrame acc.1 (State.printSlot printer r base acc j).1 := by
  unfold State.printSlot
  split
  · exact .refl _
  · split
    · exact .refl _
    · exact State.answerPrint_track _ _

theorem State.takeDispatchRead_track (gate : Option Nat) (base : Nat) (r : Request) (acc : State × FillPlan) :
    TrackFrame acc.1 (State.takeDispatchRead gate base r acc).1 :=
  foldl_frame (R := fun a b : State × FillPlan => TrackFrame a.1 b.1) (fun _ => .refl _)
    (fun _ _ _ => TrackFrame.trans) (State.dispatchSlot_track gate r base) _ acc

theorem State.takePrintRead_track (printer : Option Nat) (base : Nat) (r : Request) (acc : State × FillPlan) :
    TrackFrame acc.1 (State.takePrintRead printer base r acc).1 :=
  foldl_frame (R := fun a b : State × FillPlan => TrackFrame a.1 b.1) (fun _ => .refl _)
    (fun _ _ _ => TrackFrame.trans) (State.printSlot_track printer r base) _ acc

/-! ### Cancel control -/

/-- What cancel control leaves alone, but for its own state and the flags. -/
structure StatusFrame (s t : State) : Prop where
  pending   : t.pending = s.pending
  setup     : t.setup = s.setup
  path      : t.path = s.path
  freeCount : t.freeCount = s.freeCount
  flags     : s.KeepsFlags t

theorem StatusFrame.refl (s : State) : StatusFrame s s := ⟨rfl, rfl, rfl, rfl, .refl s⟩

theorem StatusFrame.trans {s t u : State} (h : StatusFrame s t) (k : StatusFrame t u) : StatusFrame s u :=
  ⟨k.pending.trans h.pending, k.setup.trans h.setup, k.path.trans h.path, k.freeCount.trans h.freeCount,
    h.flags.trans k.flags⟩

theorem TrackFrame.status {s t : State} (h : TrackFrame s t) : StatusFrame s t :=
  ⟨h.pending, h.setup, h.path, h.freeCount, h.flags⟩

theorem StatusFrame.watch {s t : State} (h : StatusFrame s t) : WatchFrame s t := .of_path h.pending h.freeCount h.path

theorem State.hold_status (s : State) : StatusFrame s s.hold :=
  ⟨rfl, rfl, rfl, rfl, fun _ hf => State.flagSet_raise_of_set (s := { s with cancel := { s.cancel with held := true } }) _ hf⟩

theorem State.countMisprint_status (s : State) (st : PrintStatus) : StatusFrame s (s.countMisprint st) := by
  have h0 : ∀ c : Cancel, StatusFrame s { s with cancel := c } := fun _ => ⟨rfl, rfl, rfl, rfl, .of_status rfl⟩
  cases st
  · exact h0 _
  · unfold State.countMisprint
    simp only []
    split
    · exact (h0 _).trans (State.hold_status _)
    · exact h0 _
  · exact .refl s
  · exact .refl s

/-- R119, R120: a status word that passed R118. -/
theorem State.takeStatus_status (s : State) (p : Nat) (st : PrintStatus) : StatusFrame s (s.takeStatus p st) := by
  have h0 : StatusFrame s (if st.holds = true then s.hold else s) := by
    split
    · exact s.hold_status
    · exact .refl s
  unfold State.takeStatus
  simp only []
  split
  · exact h0.trans (State.raise_track _ _).status
  · split
    · exact (h0.trans (State.modifyEntry_track _ _ _).status).trans (State.countMisprint_status _ _)
    · exact h0.trans (State.raise_track _ _).status

theorem State.statusWord_status (printer : Option Nat) (r : Request) (base : Nat) (s : State) (j : Nat) :
    StatusFrame s (State.statusWord printer r base s j) := by
  unfold State.statusWord
  split
  · exact (s.raise_track _).status
  · split
    · exact (s.raise_track _).status
    · simp only []
      split
      · exact (s.raise_track _).status
      · split
        · exact (s.raise_track _).status
        · exact s.takeStatus_status _ _

/-- R118: a write's part in the print status window. -/
theorem State.takeStatusWrite_status (printer : Option Nat) (base : Nat) (r : Request) (s : State) :
    StatusFrame s (s.takeStatusWrite printer base r) := by
  unfold State.takeStatusWrite
  split
  · exact .refl s
  · exact foldl_frame StatusFrame.refl (fun _ _ _ => StatusFrame.trans) (State.statusWord_status printer r base) _ s

/-! ### Setup capture unit -/

theorem State.refuse_watch (s : State) (r : RefusalReason) : WatchFrame s (s.refuse r) :=
  .of_path (by simp) (by simp) (by simp)

theorem State.stage_watch (s : State) (f : Settings → Settings) : WatchFrame s (s.stage f) := by
  unfold State.stage
  simp only []
  split
  · exact .of_path rfl rfl rfl
  · exact .of_path rfl rfl rfl

/-- R172 to R176: a change of a lane, or something sent downstream, leaves the queues and the held requests. -/
theorem State.setLane_watch (s : State) (l : Lane) (u : LaneUnit) : WatchFrame s (s.setLane l u) :=
  ⟨rfl, rfl, rfl, rfl, rfl, rfl, rfl, rfl⟩

theorem State.openLane_watch (s : State) (l : Lane) : WatchFrame s (s.openLane l) :=
  ⟨rfl, rfl, rfl, rfl, rfl, rfl, rfl, rfl⟩

theorem State.closeLaneIfDue_watch (s : State) (l : Lane) : WatchFrame s (s.closeLaneIfDue l) := by
  unfold State.closeLaneIfDue
  split
  · exact ⟨rfl, rfl, rfl, rfl, rfl, rfl, rfl, rfl⟩
  · exact .refl s

theorem State.openLaneDirective_watch (s : State) (l : Lane) : WatchFrame s (s.openLaneDirective l) := by
  unfold State.openLaneDirective
  split
  · exact s.openLane_watch l
  · exact s.refuse_watch _

theorem State.closeLaneDirective_watch (s : State) (l : Lane) : WatchFrame s (s.closeLaneDirective l) := by
  unfold State.closeLaneDirective
  split
  · exact (s.setLane_watch _ _).trans (State.closeLaneIfDue_watch _ _)
  · exact s.refuse_watch _

theorem Issued.unlink_unlink (i : Issued) : i.unlink.unlink = i.unlink := by
  cases i with
  | mk lane source tag kind plan link => cases link <;> rfl

theorem State.restarted_watch (s : State) : WatchFrame s s.restarted := by
  refine ⟨rfl, rfl, rfl, rfl, rfl, ?_, rfl, rfl⟩
  simp only [State.restarted, List.map_map]
  exact List.map_congr_left fun i _ => i.unlink_unlink

theorem State.directRun_watch (s : State) : WatchFrame s s.directRun := by
  unfold State.directRun
  split
  · exact .refl s
  · exact .of_path rfl rfl rfl
  · split
    · exact .of_path rfl rfl rfl
    · exact .of_path rfl rfl rfl

theorem State.directDrain_watch (s : State) : WatchFrame s s.directDrain := by
  unfold State.directDrain
  split
  · exact WatchFrame.trans (t := { s with mode := .drain }) (.of_path rfl rfl rfl) (State.drainEndIfDue_track _).watch
  · exact s.refuse_watch _

/-- R84: the STBY directive. -/
theorem State.directStby_watch (s : State) : WatchFrame s s.directStby := by
  unfold State.directStby
  split
  · exact .refl s
  · exact ((foldl_frame TrackFrame.refl (fun _ _ _ => TrackFrame.trans)
      (fun s p => State.retire_track s .aborted p) _ s).trans (State.requestClose_track _ _)).trans
      (State.enterStandby_track _) |>.watch

theorem State.takeDirective_watch (s : State) (c o : BitVec 8) : WatchFrame s (s.takeDirective c o) := by
  unfold State.takeDirective
  split
  · exact s.directRun_watch
  · exact s.directDrain_watch
  · exact s.directStby_watch
  · exact .of_path rfl rfl rfl
  · exact (s.requestClose_track _).watch
  · exact .of_path rfl rfl rfl
  · exact .of_path rfl rfl rfl
  · exact .of_path rfl rfl rfl
  · unfold State.directLopen; split
    · exact s.openLaneDirective_watch _
    · exact s.refuse_watch _
  · unfold State.directLclose; split
    · exact s.closeLaneDirective_watch _
    · exact s.refuse_watch _
  · unfold State.directRestart; split
    · exact s.restarted_watch
    · exact s.refuse_watch _
  · exact s.refuse_watch _

/-- A change of the setup capture unit's own state. -/
theorem State.withSetup_watch (s : State) (u : SetupUnit) : WatchFrame s { s with setup := u } := .of_path rfl rfl rfl

theorem State.takeMemoryMap_watch (s : State) (m : MemoryMapRecord) : WatchFrame s (s.takeMemoryMap m) := by
  unfold State.takeMemoryMap
  repeat' split
  all_goals first | exact s.refuse_watch _ | exact s.withSetup_watch _

theorem State.takeSourceTable_watch (s : State) (m : SourceTableRecord) : WatchFrame s (s.takeSourceTable m) := by
  unfold State.takeSourceTable
  repeat' split
  all_goals first | exact s.refuse_watch _ | exact s.withSetup_watch _

theorem State.takeLaneMap_watch (s : State) (m : LaneMapRecord) : WatchFrame s (s.takeLaneMap m) := by
  unfold State.takeLaneMap
  split
  · exact s.withSetup_watch _
  · exact s.refuse_watch _

theorem State.takeAlarm_watch (s : State) (m : BitVec 16) : WatchFrame s (s.takeAlarm m) := s.withSetup_watch _

theorem State.takeCorrection_watch (s : State) (m : CorrectionRecord) : WatchFrame s (s.takeCorrection m) := by
  unfold State.takeCorrection
  split
  · exact s.stage_watch _
  · exact s.refuse_watch _

theorem State.takeClassTest_watch (s : State) (m : ClassTestRecord) : WatchFrame s (s.takeClassTest m) := by
  unfold State.takeClassTest
  split
  · exact s.stage_watch _
  · exact s.refuse_watch _

theorem State.takeGeometry_watch (s : State) (m : GeometryRecord) : WatchFrame s (s.takeGeometry m) := by
  unfold State.takeGeometry
  split
  · exact s.stage_watch _
  · exact s.refuse_watch _

theorem State.takeDecision_watch (s : State) (m : DecisionRecord) : WatchFrame s (s.takeDecision m) := by
  unfold State.takeDecision
  split
  · exact s.stage_watch _
  · exact s.refuse_watch _

theorem State.takeTraySet_watch (s : State) (m : TraySetRecord) : WatchFrame s (s.takeTraySet m) := by
  unfold State.takeTraySet
  split
  · split
    · exact .of_path rfl rfl rfl
    · exact .of_path rfl rfl rfl
  · exact s.refuse_watch _

/-- R150, R151: a capture. -/
theorem State.takeRecord_watch (s : State) (bs : List Byte) : WatchFrame s (s.takeRecord bs) := by
  unfold State.takeRecord
  split
  · exact s.takeMemoryMap_watch _
  · exact s.takeSourceTable_watch _
  · exact s.takeLaneMap_watch _
  · exact s.takeDirective_watch _ _
  · exact s.takeAlarm_watch _
  · exact s.takeCorrection_watch _
  · exact s.takeClassTest_watch _
  · exact s.takeGeometry_watch _
  · exact s.takeDecision_watch _
  · exact s.takeTraySet_watch _
  · exact s.refuse_watch _

/-! ### Arrival -/

/-- A relation that holds of whatever a watching block does by itself, and of what `settle` does, holds of all that a
request's arrival does. -/
structure ArrivalRel (settle : State → State) (R : State → State → Prop) : Prop where
  refl   : ∀ s, R s s
  trans  : ∀ s t u, R s t → R t u → R s u
  watch  : ∀ s t, WatchFrame s t → R s t
  settle : ∀ s, R s (settle s)

section ArrivalRel

variable {settle : State → State} {R : State → State → Prop}

theorem ArrivalRel.capture (h : ArrivalRel settle R) (bs : List Byte) (s : State) : R s (s.capture settle bs) := by
  unfold State.capture
  split
  · exact h.trans _ _ _ (h.watch _ _ (s.takeRecord_watch bs)) (h.settle _)
  · exact h.watch _ _ (s.takeRecord_watch bs)

theorem ArrivalRel.takeSetupSlot (h : ArrivalRel settle R) (r : Request) (s : State) (k : Nat) :
    R s (State.takeSetupSlot settle r s k) := by
  unfold State.takeSetupSlot
  simp only []
  split
  · exact h.trans _ _ _ (h.watch _ _ (s.withSetup_watch _)) (h.capture _ _)
  · exact h.watch _ _ (s.withSetup_watch _)

/-- R148, R149: a setup write. -/
theorem ArrivalRel.takeSetupWrite (h : ArrivalRel settle R) (s : State) (host : Bool) (r : Request) :
    R s (s.takeSetupWrite settle host r) := by
  unfold State.takeSetupWrite
  split
  · exact foldl_frame h.refl h.trans (h.takeSetupSlot r) _ s
  · exact h.watch _ _ (s.raise_track _).watch

theorem ArrivalRel.takePart (h : ArrivalRel settle R) (sources : Option SourceTable) (r : Request)
    (acc : State × FillPlan) (p : Nat × Part) : R acc.1 (State.takePart settle sources r acc p).1 := by
  unfold State.takePart
  split
  · exact h.takeSetupWrite _ _ _
  · exact h.watch _ _ (State.offerImage_track _ _ _ _ _).watch
  · exact h.watch _ _ (State.takeExitWrite_track _ _ _ _).watch
  · exact h.watch _ _ (State.takeStatusWrite_status _ _ _ _).watch
  · exact h.watch _ _ (State.takeDispatchRead_track _ _ _ _).watch
  · exact h.watch _ _ (State.takePrintRead_track _ _ _ _).watch
  · exact h.refl _

/-- R171: what the blocks do with a request, and what the held requests that it moves do. -/
theorem ArrivalRel.offer (h : ArrivalRel settle R) (s : State) (r : Request) : R s (s.offer settle r).1 :=
  foldl_frame (R := fun a b : State × FillPlan => R a.1 b.1) (fun _ => h.refl _) (fun _ _ _ => h.trans _ _ _)
    (h.takePart _ r) _ (s, [])

end ArrivalRel

/-- R168: a request outside every window, or one that no window sees, is offered to no block. -/
theorem State.offer_of_no_parts {s : State} {r : Request} (settle : State → State) (h : partsOf s.setup r = []) :
    s.offer settle r = (s, []) := by
  simp [State.offer, h, orderParts]

/-- R168: a request that crosses a 4 KiB boundary or has source id 15 lies in no window. -/
theorem partsOf_outside (u : SetupUnit) {r : Request} (h : reqOutside r = true) : partsOf u r = [] := by
  simp [partsOf, h]

/-- R170: with nothing held, nothing is admitted. -/
theorem State.settleHeld_of_held_nil {s : State} (h : s.path.held = []) : s.settleHeld = s := by
  have key : ∀ n, s.admitHeld n = s := by
    intro n
    cases n with
    | zero => rfl
    | succ n => simp [State.admitHeld, State.nextAdmitted, h, takeFirst]
  exact key _

theorem State.enqueue_held (s : State) (l : UpLane) (q : Queued) : (s.enqueue l q).path.held = s.path.held := rfl

/-- R170: a relation that holds of what the watching blocks do by themselves and of every change of the path unit holds of
the arrival of held requests. -/
theorem State.admitHeld_rel {R : State → State → Prop} (hr : ∀ s, R s s) (ht : ∀ s t u, R s t → R t u → R s u)
    (hw : ∀ s t, WatchFrame s t → R s t) (hp : ∀ (s : State) (p : PathUnit), R s { s with path := p }) :
    ∀ (n : Nat) (s : State), R s (s.admitHeld n)
  | 0, s => hr s
  | n + 1, s => by
    have ih := State.admitHeld_rel hr ht hw hp n
    have ar : ArrivalRel (State.admitHeld n) R := ⟨hr, ht, hw, ih⟩
    unfold State.admitHeld
    split
    · exact hr s
    · rename_i q _
      have h1 : R s (({ s with path := { s.path with held := q.2 } } : State).presentBehind q.1.classTag) := by
        unfold State.presentBehind
        split
        · exact ht _ _ _ (hp s _) (hp _ _)
        · exact hp s _
      refine ht _ _ _ (ht _ _ _ h1 ?_) (ih _)
      unfold State.arrive
      split
      · exact ht _ _ _ (hp _ _) (ar.offer _ _)
      · exact ht _ _ _ (ar.offer _ _) (hp _ _)

/-- R170: with nothing held, no LANE_MAP of an arriving request lets another arrive. -/
theorem arrivalRel_of_held_nil : ArrivalRel State.settleHeld fun s t => s.path.held = [] → WatchFrame s t where
  refl s := fun _ => .refl s
  trans _ _ _ h k := fun e => (h e).trans (k ((h e).held.trans e))
  watch _ _ h := fun _ => h
  settle s := fun e => by rw [State.settleHeld_of_held_nil e]; exact .refl s

/-- R171: with nothing held, whatever the watching blocks do with a request, the queues are as they were and nothing is
held. -/
theorem State.offer_watch {s : State} (r : Request) (h : s.path.held = []) : WatchFrame s (s.offer State.settleHeld r).1 :=
  arrivalRel_of_held_nil.offer s r h

/-- R171: an arrival with nothing held leaves nothing held. -/
theorem State.arrive_held {s : State} (l : UpLane) (r : Request) (h : s.path.held = []) :
    (s.arrive State.settleHeld l r).path.held = [] := by
  unfold State.arrive
  split
  · exact (State.offer_watch r (s := s.enqueue l { request := r, plan := [] }) h).held.trans h
  · exact (State.offer_watch r h).held.trans h

/-- R170: with nothing held and room in its lane, a presented request arrives, and nothing else does. -/
theorem State.present_accepted {s : State} {r : Request} (h : s.AcceptsAtOnce r) :
    s.present r = s.arrive State.settleHeld (s.laneOf r) r := by
  unfold State.present
  rw [if_neg (by simp [h.1]), if_pos h.2]
  exact State.settleHeld_of_held_nil (State.arrive_held _ _ h.1)

/-- R168, R171: an accepted request that no window sees is queued, and that is all. -/
theorem State.present_unseen {s : State} {r : Request} (h : s.AcceptsAtOnce r) (hp : partsOf s.setup r = []) :
    s.present r = s.queued r [] := by
  rw [State.present_accepted h]
  unfold State.arrive State.queued
  split
  · rw [State.offer_of_no_parts _ (by simpa using hp)]
  · rw [State.offer_of_no_parts _ hp]

/-- R170: a request whose class has nothing held and whose lane is full is held. -/
theorem State.present_held {s : State} {r : Request} (hc : ∀ h ∈ s.path.held, h.classTag ≠ r.classTag)
    (hf : s.hasRoom (s.laneOf r) = false) :
    s.present r = { s with path := { s.path with held := s.path.held ++ [r] } } := by
  unfold State.present
  rw [if_neg (by simpa using hc), if_neg (by simp [hf])]

end Sys2Proof.Machine
end

