-- ==== Sys2Proof/Laws/Words.lean ====
section
/-! SUPPORT. The words of the statements (Sys2Proof/Safety.lean) and the operations of the machine: for each shared
operation one lemma that says which word it is, and under which conditions. -/

namespace Sys2Proof.Machine

/-! ## Flags, sides, parsers -/

theorem State.raise_eq_flagged (s : State) (f : Flag) : s.raise f = s.flagged f.index := rfl

theorem State.modifyEntry_eq_withPiece (s : State) (piece : Nat) (f : Entry → Entry) :
    s.modifyEntry piece f = s.withPiece piece f := rfl

theorem State.modifySide_eq_withSide (s : State) (sd : Side) (piece : Nat) (f : SideRecord → SideRecord) :
    s.modifyEntry piece (Entry.modifySide sd f) = s.withSide sd piece f := rfl

theorem State.setParser_eq_skipped (s : State) (sd : Side) : s.setParser sd .skipping = s.skipped sd := rfl

theorem satLine_eq_lineUp (n : Nat) : satLine n = lineUp n := by
  unfold satLine lineUp
  split <;> omega

theorem satInc_eq_stepUp (n : Nat) : satInc n = stepUp n := by
  unfold satInc stepUp counterMax
  split <;> omega

theorem State.refuse_eq_refusedFor (s : State) {reason : RefusalReason} (h : reason ≠ .once) :
    s.refuse reason = s.refusedFor reason := by
  cases reason <;> first | rfl | exact absurd rfl h

theorem State.refuse_once_eq_refusedOnce (s : State) : s.refuse .once = s.refusedOnce := by
  simp only [State.refuse, State.refusedOnce, State.raiseIf, State.raise, BitVec.or_assoc, decide_true, if_true]
  rfl

/-! ## Lines -/

theorem Header.isMalformed_iff (sd : Side) (h : Header) : h.isMalformed sd = true ↔ h.Bad sd := by
  simp only [Header.isMalformed, Header.Bad, Bool.or_eq_true, Bool.and_eq_true, decide_eq_true_eq]
  tauto

theorem State.completeLine_eq_lineEnded (s : State) (sd : Side) (ln : Line) :
    s.completeLine sd ln = s.lineEnded sd ln := rfl

theorem State.faultLine_eq_lineFaulted (s : State) (sd : Side) (ln : Line) :
    s.faultLine sd ln = s.lineFaulted sd ln := by
  simp only [State.faultLine, State.lineFaulted, satLine_eq_lineUp, State.closeIfTrail, State.handFaulted]
  rfl

/-- R72, R77, R21: an entry replaced and its inspection finished. -/
theorem State.finishInspection_eq_finishedWith (s : State) (e : Entry) :
    (s.modifyEntry e.piece fun _ => e).finishInspection e.piece = s.finishedWith e := by
  have h : (s.entries.map fun q => if q.piece = e.piece then e else q).map
      (fun q => if q.piece = e.piece then { q with running := false } else q) =
      s.entries.map fun q => if q.piece = e.piece then { e with running := false } else q := by
    rw [List.map_map]
    refine List.map_congr_left fun q _ => ?_
    by_cases hq : q.piece = e.piece <;> simp [hq]
  simp only [State.finishInspection, State.modifyEntry, State.releaseGenerations, State.claims, State.finishedWith, h]

/-! ## Counting and tray close -/

theorem TallyUnit.count_eq_counted (t : TallyUnit) (k : Fin 12) : t.count k = t.counted k := by
  simp only [TallyUnit.count, TallyUnit.counted, satInc_eq_stepUp]

theorem State.hasTray_of_noTrayQueued {s : State} (h : s.NoTrayQueued) : s.report.hasTray = false := by
  rw [Report.hasTray, List.any_eq_false]
  intro e he
  have := h e he
  rw [ReportEntry.isTray] at this
  split <;> simp_all

/-- R133: an executed close with no tray record in the report queue. -/
theorem State.executeClose_eq_trayClosed {s : State} (h : s.NoTrayQueued) (reason : CloseReason) (mark : SealMark) :
    s.executeClose reason mark = s.trayClosed reason mark := by
  have ht := s.hasTray_of_noTrayQueued h
  cases hd : s.trays.dirty
  · have hf : ({ inForce := s.trays.inForce, staged := s.trays.staged, dirty := false } : TraySets) = s.trays := by
      cases ht : s.trays with
      | mk inForce staged dirty =>
        rw [ht] at hd
        simp only at hd
        rw [hd]
    by_cases hq : s.report.queue.length < 8 <;>
      simp [State.executeClose, State.applyTraySetIfDirty, State.joinTrayRecord, State.trayClosed, Report.join, reportCapacity,
        Counts.zero, hd, hq, ht, hf] <;> rfl
  · by_cases hq : s.report.queue.length < 8 <;>
      simp [State.executeClose, State.applyTraySetIfDirty, State.joinTrayRecord, State.trayClosed, Report.join, reportCapacity,
        Counts.zero, hd, hq, ht] <;> rfl

/-- R130: a close request. -/
theorem State.requestClose_eq_closeAsked {s : State} (h : s.tally.other = .free → s.NoTrayQueued) (reason : CloseReason) :
    s.requestClose reason = s.closeAsked reason := by
  cases ho : s.tally.other with
  | free => simp [State.requestClose, State.closeAsked, ho, State.executeClose_eq_trayClosed (h ho)]
  | sealed c d =>
    cases hp : s.tally.pending <;>
      simp [State.requestClose, State.closeAsked, State.closeWaits, Pending.asked, ho, hp]
  | writing c d =>
    cases hp : s.tally.pending <;>
      simp [State.requestClose, State.closeAsked, State.closeWaits, Pending.asked, ho, hp]

/-- R132: the limit check of a retirement. -/
theorem State.limitCheck_eq_limitAsked {s : State} (h : s.tally.other = .free → s.NoTrayQueued) :
    s.limitCheck = s.limitAsked := by
  simp only [State.limitCheck, State.limitAsked, piecesInTray, State.requestClose_eq_closeAsked h]

/-- R83, R84: STANDBY on an empty table. -/
theorem State.enterStandby_eq_atRest {s : State} (h : s.entries = []) : s.enterStandby = s.atRest := by
  cases hd : s.gens.dirty <;>
    simp [State.enterStandby, State.idleInspection, State.applyStagedIfDirty, State.applyStaged, State.releaseGenerations,
      State.claims, State.atRest, Generations.applied, hd, h]

/-! ## The path unit -/

/-- R179: the issue of a U-port lane's oldest request. -/
theorem State.issueForward_eq_forwarded {s : State} {l : UpLane} {q : Queued} {rest : List Queued}
    (h : s.path.queues.get l = q :: rest) : s.issueForward l = s.forwarded l q rest := by
  simp only [State.issueForward, h, State.charge, State.setQueue, State.send, State.sendDown, State.setLane, State.forwarded,
    State.lane, LaneUnit.spent, State.guardAfter, State.guardStep, guardMax]

/-- R180: the oldest request of the issued list that has a source id and a tag. -/
theorem matchIssued_at {src : BitVec 4} {tag : BitVec 8} {before after : List Issued} {i : Issued} (hs : i.source = src)
    (ht : i.tag = tag) (h : ∀ j ∈ before, ¬(j.source = src ∧ j.tag = tag)) :
    matchIssued src tag (before ++ i :: after) = some (i, before ++ after) := by
  induction before with
  | nil => simp [matchIssued, hs, ht]
  | cons j js ih =>
    have hj := h j (by simp)
    have := ih fun x hx => h x (by simp [hx])
    simp_all [matchIssued]

/-- R141: the report queue entry ISSUED with a tag. -/
theorem takeIssuedRecord_at {tag : Nat} {older younger : List ReportEntry} {c : Record}
    (h : ∀ e ∈ older, e.state ≠ .issued tag) :
    takeIssuedRecord tag (older ++ { record := c, state := .issued tag } :: younger) = some (c, older ++ younger) := by
  induction older with
  | nil => simp [takeIssuedRecord]
  | cons e es ih =>
    have h1 := h e (by simp)
    have := ih fun x hx => h x (by simp [hx])
    simp_all [takeIssuedRecord]

/-! ## Requests in parts -/

@[simp] theorem reqLo_beatsTo (n : Nat) (r : Request) : reqLo (beatsTo n r) = reqLo r := rfl

@[simp] theorem reqHi_beatsTo (n : Nat) (r : Request) : reqHi (beatsTo n r) = reqLo r + 8 * n := rfl

theorem reqLo_beatsFrom {n : Nat} {r : Request} (h : reqLo r + 8 * n < 4294967296) :
    reqLo (beatsFrom n r) = reqLo r + 8 * n := by
  simp only [reqLo] at h
  simp only [reqLo, beatsFrom, BitVec.toNat_add, BitVec.toNat_ofNat]
  omega

theorem writtenAt_beatsTo {n a : Nat} {r : Request} (h : a < reqLo r + 8 * n) :
    writtenAt (beatsTo n r) a = writtenAt r a := by
  unfold writtenAt
  by_cases hl : a < reqLo r
  · rw [if_pos hl, if_pos (show a < reqLo (beatsTo n r) from hl)]
  · rw [if_neg hl, if_neg (show ¬a < reqLo (beatsTo n r) from hl), reqLo_beatsTo, show (beatsTo n r).payload = r.payload.take (8 * n) from rfl,
      List.getElem?_take_of_lt (by omega)]

theorem writtenAt_beatsFrom {n a : Nat} {r : Request} (w : reqLo r + 8 * n < 4294967296) (h : reqLo r + 8 * n ≤ a) :
    writtenAt (beatsFrom n r) a = writtenAt r a := by
  simp only [writtenAt, reqLo_beatsFrom w]
  rw [if_neg (by omega), if_neg (by omega), show (beatsFrom n r).payload = r.payload.drop (8 * n) from rfl,
    List.getElem?_drop, show 8 * n + (a - (reqLo r + 8 * n)) = a - reqLo r by omega]

theorem touchedSlots_eq_slotsTouched (r : Request) (base size count : Nat) :
    touchedSlots r base size count = (slotsTouched r base size count).map fun j => base + size * j := by
  simp only [touchedSlots, slotsTouched, List.filter_map]
  rfl

@[simp] theorem State.slotsTaken_nil (c : Request → Instr) (size : Nat) (r : Request) (s : State) :
    s.slotsTaken c size r [] = (s, []) := rfl

theorem State.slotsTaken_append (c : Request → Instr) (size : Nat) (r : Request) (as : List Nat) (a : Nat) (s : State) :
    s.slotsTaken c size r (as ++ [a]) = State.slotTaken c size r (s.slotsTaken c size r as) a := by
  simp [State.slotsTaken]

/-- R149, R150: one slot of a host write, where no held request waits for a LANE_MAP. -/
theorem State.takeSetupSlot_eq_hostSlot (r : Request) (s : State) (k : Fin 16) :
    s.takeSetupSlot id r k.val = State.hostSlot r s k := by
  have set : ∀ v : Shadow, s.setup.shadows.setIfInBounds k.val v = s.setup.shadows.set k.val v := fun v => by
    ext i hi
    simp [Vector.getElem_setIfInBounds, Vector.getElem_set]
  simp [State.takeSetupSlot, State.hostSlot, shadowAfter, coversTail, State.capture, setupBase, set]

end Sys2Proof.Machine
end

