-- ==== Sys2Proof/Tests/Slice0.lean ====
section
/-! SUPPORT. The model's own tests: ill-formed commands that `Instr.wellFormed` refuses, the worked examples of the spec,
and for each obligation with hypotheses a concrete state and operands that meet them (`witness_` and its name). -/

namespace Sys2Proof.Tests

open Sys2Proof Sys2Proof.Machine

/-! ## Helpers -/

/-- A write of whole beats with every byte enabled. -/
def wr (addr src cls : Nat) (bs : List Byte) : Request :=
  { kind := .write, addr := BitVec.ofNat 32 addr, beats := bs.length / 8, source := BitVec.ofNat 4 src
    classTag := BitVec.ofNat 3 cls, tag := 9, payload := bs.map fun b => (true, b) }

/-- A write of one beat with no byte enabled. -/
def wrNone (addr src cls : Nat) : Request := { wr addr src cls [] with beats := 1, payload := List.replicate 8 (false, 0) }

/-- A read. -/
def rd (addr beats src cls : Nat) : Request :=
  { kind := .read, addr := BitVec.ofNat 32 addr, beats := beats, source := BitVec.ofNat 4 src
    classTag := BitVec.ofNat 3 cls, tag := 7, payload := [] }

/-- Little-endian bytes. -/
def le (k n : Nat) : List Byte := bytesOfNum k n

/-- The state a command leaves. -/
def after (c : Instr) (s : State) : State :=
  match exec c s with
  | .next t => t
  | _ => s

/-- The memory map of section 11.6. -/
def mapRecord : MemoryMapRecord :=
  { faceBase := 0x10000000, faceCount := 64, backBase := 0x10040000, backCount := 64, dispatch := 0x10080000
    print := 0x10080400, status := 0x10080800, exit := 0x10080C00, live := 0x10081000, pieceBase := 0x10082000
    pieceCount := 1024, trayBase := 0x1008A000, trayCount := 64 }

/-- The source table of section 11.6: heads 1 and 2, gate 4, printer 5, host set of id 0. -/
def sourceTable : SourceTable := { heads := { face := 1, back := 2 }, gate := 4, printer := 5, hosts := 1 }

/-- The setup unit of section 11.6 with the two once-only records captured. -/
def setupUnit : SetupUnit := { SetupUnit.reset 0x0081 with map := some mapRecord.map, sources := some sourceTable }

/-- A lane that is UP. -/
def up (credits : Nat) : LaneUnit := { state := .up, credits := credits, outstanding := 0 }

/-- The path unit at rest with every lane UP. -/
def lanesUp : PathUnit :=
  { PathUnit.reset with lanes := { img := up 32, ctl := up 16, blk := up 8, rpt := up 8 }, downLog := [] }

/-- STANDBY with the placement captured and every lane UP. -/
def ready : State := { State.resetWith 0x0081 with setup := setupUnit, path := lanesUp }

/-- RUN with an empty table. -/
def running : State := { ready with mode := .run }

/-- RUN with entries in the table, each counted opened. -/
def withEntries (es : List Entry) : State :=
  { running with entries := es, tally := { running.tally with opened := es.length } }

/-- The entry of piece 2001 as its open creates it; its window slots are 17. -/
def e2001 : Entry := Entry.fresh 2001 0

/-- A lane's unit replaced. -/
def withLane (l : Lane) (u : LaneUnit) (s : State) : State :=
  { s with path := { s.path with lanes := s.path.lanes.set l u } }

/-- A piece record. -/
def pieceRec : PieceRecord := e2001.record .aborted 135 2

/-- Seal data of tray 2. -/
def seal2 : SealData := { trayNumber := 2, reason := .tclose, mark := .none, recordSeq := 137 }

/-- The report queue entry of a record. -/
def waits (r : Record) : ReportEntry := { record := r, state := .waiting }

/-- The report queue replaced. -/
def withQueue (q : List ReportEntry) (s : State) : State := { s with report := { s.report with queue := q } }

/-- The issued list replaced. -/
def withIssued (q : List Issued) (s : State) : State := { s with path := { s.path with issued := q } }

/-- A forwarded request of BLK. -/
def forwardedItem (kind : ReqKind) (plan : FillPlan) : Issued :=
  { lane := .blk, source := 3, tag := 7, kind := kind, plan := plan, link := .forwarded }

/-- An injected write. -/
def injectedItem (tag : Nat) (linked : Bool) : Issued :=
  { lane := .rpt, source := 15, tag := BitVec.ofNat 8 tag, kind := .write, plan := [], link := .injected linked }

/-- The captured placement of section 11.6 obeys its law, in every mode. -/
theorem placement_of_setup (s : State) (h : s.setup = setupUnit) : s.PlacementLaw where
  running := by rw [h]; intro _; exact ⟨by decide, by decide⟩
  map := by
    intro m hm
    rw [h] at hm ⊢
    injection hm with hm
    subst hm
    decide
  sources := by
    intro x hx
    rw [h] at hx
    injection hx with hx
    subst hx
    exact ⟨by intro sd; cases sd <;> decide, by decide, by decide, by decide, by decide⟩

/-! ## Ill-formed commands -/

theorem test_wellFormed_one_beat : (Instr.requestPresentation (rd 0 1 0 0)).wellFormed = true := by decide
theorem test_wellFormed_thirty_two_beats : (Instr.requestArrival (rd 0 32 0 0)).wellFormed = true := by decide
theorem test_illFormed_no_beat : (Instr.requestPresentation (rd 0 0 0 0)).wellFormed = false := by decide
theorem test_illFormed_thirty_three_beats : (Instr.requestArrival (rd 0 33 0 0)).wellFormed = false := by decide
theorem test_illFormed_short_payload :
    (Instr.setupWrite { wr 0 0 0 (le 8 0) with beats := 2 }).wellFormed = false := by decide
theorem test_illFormed_read_with_payload :
    (Instr.requestPresentation { wr 0 0 0 (le 8 0) with kind := .read }).wellFormed = false := by decide
theorem test_illFormed_image_read : (Instr.imageWrite (rd 0 1 0 0)).wellFormed = false := by decide
theorem test_illFormed_setup_read : (Instr.setupWrite (rd 0 1 0 0)).wellFormed = false := by decide
theorem test_illFormed_dispatch_write : (Instr.dispatchRead (wr 0 0 0 (le 8 0))).wellFormed = false := by decide
theorem test_illFormed_print_write : (Instr.printRead (wr 0 0 0 (le 8 0))).wellFormed = false := by decide
theorem test_illFormed_live_write : (Instr.liveRead (wr 0 0 0 (le 8 0))).wellFormed = false := by decide
theorem test_illFormed_exit_read : (Instr.exitWrite (rd 0 1 0 0)).wellFormed = false := by decide
theorem test_illFormed_status_read : (Instr.printStatusWrite (rd 0 1 0 0)).wellFormed = false := by decide
theorem test_illFormed_response_part_beat : (Instr.response 1 0 .ok (le 7 0)).wellFormed = false := by decide
theorem test_illFormed_response_too_long : (Instr.response 1 0 .ok (List.replicate 264 0)).wellFormed = false := by
  decide +kernel

/-! ## Worked examples of the spec -/

/-- Section 10.9: OPEN for BLK is type 1, lane code 2; a GRANT of 63 to RPT. -/
theorem test_lane_message_words :
    linkMessage 1 .blk 0 = 0x0011#16 ∧ decodeMessage 0xF7FB#16 = some (.grant .rpt 63) ∧ decodeMessage 0x0011#16 = none := by
  decide

/-- R26: the four example samples under the default tests. -/
theorem test_example_samples :
    let hits : Sample → List Bool :=
      fun c => [ClassTest.defaultPh.hit c, ClassTest.defaultCol.hit c, ClassTest.defaultFl.hit c]
    hits { v := 700, r := 640, l := 420 } = [false, false, true] ∧
      hits { v := 300, r := 200, l := 720 } = [true, true, false] ∧
      hits { v := 800, r := 450, l := 500 } = [false, false, false] ∧
      hits { v := 900, r := 600, l := 600 } = [false, false, false] := by
  decide

/-- R26: COL changed to R OUTSIDE lo 150 hi 900. -/
theorem test_example_outside :
    let t : ClassTest :=
      { ClassTest.defaultCol with primary := { channel := .r, mode := .outside, lo := 150, hi := 900 } }
    let at' : Nat → Bool × Bool := fun r => (t.hit { v := 0, r := r, l := 0 }, t.overHit { v := 0, r := r, l := 0 })
    at' 100 = (true, false) ∧ at' 950 = (true, true) ∧ at' 150 = (false, false) ∧ at' 500 = (false, false) ∧
      at' 900 = (false, false) := by
  decide

/-- R27: the bands at t 100, u 219, zh 80 (TOP 100..179, BOTTOM 140..219) and of one sample at t = u = 50. -/
theorem test_example_bands :
    (inBand 80 100 219 100 .top && inBand 80 100 219 179 .top && inBand 80 100 219 140 .bottom &&
        inBand 80 100 219 219 .bottom && inBand 8 50 50 50 .top && inBand 8 50 50 50 .bottom) = true ∧
      (inBand 80 100 219 99 .top || inBand 80 100 219 180 .top || inBand 80 100 219 139 .bottom ||
        inBand 80 100 219 220 .bottom || inBand 8 50 50 49 .top || inBand 8 50 50 51 .bottom) = false := by
  decide

/-- Section 3.11, piece 820: 20 lines of 31 hits with ysum 837 and extent 329 at positions 20 to 39. -/
theorem test_example_centroid :
    let z := ((List.range 20).foldl (fun z i => z.addLine (20 + i) 329 { h := 31, overs := 0, ysum := 837 })
      ZoneRecord.empty).complete ClassTest.defaultPh
    (z.lines, z.hits, z.xsum, z.ysum, z.esum) = (20, 620, 18290, 16740, 6580) ∧ z.present = true ∧
      (z.score, z.xc, z.yc, z.e) = (620, 30, 27, 329) := by
  decide +kernel

/-- A present record of a score, with the position of piece 812. -/
def presentRec (score : Nat) : ZoneRecord :=
  { ZoneRecord.empty with done := true, present := true, score := score, xc := 436, yc := 289, e := 329 }

/-- Section 3.11, piece 812: ROTATE to 43, 40 with die 0. -/
theorem test_example_rotate :
    let v := verdictOf Settings.default.decision TraySet.default.facing [{ corner := 3, cls := .ph, zone := presentRec 2860 }]
    let d := (formDecision Settings.default TraySet.default .full 480 v).decision
    (d.outcome, d.turn, d.position, d.plan) = (.stamp, .rotate, some (43, 40), some (.print 0)) := by
  decide

/-- Section 3.11: a second mark at corner 4 is ambiguous at score 2300 and not at 2280. -/
theorem test_example_ambiguous :
    let v : Nat → Verdict := fun n => verdictOf Settings.default.decision TraySet.default.facing
      [{ corner := 3, cls := .ph, zone := presentRec 2860 }, { corner := 4, cls := .ph, zone := presentRec n }]
    ((v 2300).outcome, (v 2300).turn) = (.cullAmbig, .none) ∧ ((v 2280).outcome, (v 2280).turn) = (.stamp, .rotate) := by
  decide

/-- Section 11.3: x' 8 with x_min 20 is beyond T 8, and clamped at T 12. -/
theorem test_example_tolerance :
    axisTest 20 160 8 8 = .beyond ∧ (axisTest 20 160 12 8).value 8 = 20 ∧ (axisTest 20 160 12 8).isClamped = true := by
  decide

/-- Section 10.10: words 2 and 5 of a piece record that retires CULL_FAULT with EARLY_EXIT, stacker 6. -/
theorem test_example_piece_record :
    let p := { e2001 with stacker := some 6, remarks := 128 }.record .cullFault 0 1
    p.word2 = 0x00D00008 ∧ p.word5 = 0x00400000 := by
  decide

/-- R103, section 11.2: the dispatch word of piece 2001 names it in its first two bytes (2001 = 07D1h). -/
theorem test_dispatch_word_names_the_piece :
    (DispatchAnswer.bytes { piece := 2001, kind := .stampOk, turn := .pass, stacker := 0, early := true, clamped := false
                            late := false }).take 2 = [0xD1, 0x07] := by
  decide

/-- Section 11.6, step 6: RUN with three lanes DOWN is refused, RUN_REFUSED (flag 3) alone. -/
theorem test_run_lane_not_up :
    let s := after .run (withLane .img LaneUnit.down ready)
    (s.mode, s.status.flags, s.status.runReason, s.status.setupReason) = (.standby, 8#14, .laneNotUp, .none) := by
  decide +kernel

/-- Section 11.6, step 9: a piece-boundary record taken in STANDBY makes one generation. -/
theorem test_geometry_makes_a_generation :
    let s := after (.geometry { zw := 96, zh := 80, lineLimit := 800, lineFaultLimit := 4 }) ready
    (s.gens.newest.number, s.gens.newest.settings.geometry.lineFaultLimit, s.gens.dirty) = (1, 4, false) := by
  decide +kernel

/-- Section 11.4, event 27: a HEAD_FAULT status word holds cancelling, and CANCEL_HELD (flag 9) is set. -/
theorem test_head_fault_holds :
    let s := after (.printStatusWrite (wr (0x10080800 + 8 * 17) 5 0 (le 2 2001 ++ le 1 3 ++ le 5 0)))
      (withEntries [{ e2001 with print := some { piece := 2001, action := .print 30 27 0 } }])
    (s.cancel.held, s.status.flags, s.entries.map Entry.remarks) = (true, 512#14, [32768#17]) := by
  decide +kernel

/-- Section 11.5, event 35: TCLOSE while bank A is WRITING waits as the pending close. -/
theorem test_tclose_waits :
    let s := after .tclose { running with tally := { running.tally with other := .writing Counts.zero seal2 } }
    s.tally.pending = some { reason := .tclose, merged := false } := by
  decide +kernel

/-- R23: the table of corrected values. -/
theorem test_example_corrections :
    [((40, 300), 700), ((40, 300), 30), ((40, 300), 1000), ((40, 255), 41), ((0, 256), 500), ((0, 1023), 1023)].map
        (fun q : (Nat × Nat) × Nat => ({ black := q.1.1, gain := q.1.2 } : ChannelCorrection).correct q.2) =
      [773, 0, 1023, 0, 500, 1023] := by
  decide

/-! ## Witnesses: the machine as a whole and its laws -/

theorem witness_StepRunsTheFrontCommand :
    ({ ready with pending := [.clrs, .run] } : State).pending = [.clrs, .run] ∧ State.reset.pending = [] := by
  decide

theorem witness_PlacementLastsUntilPinReset :
    (∀ straps, Instr.run ≠ .pinReset straps) ∧ exec .run ready = .next running ∧
      ready.setup.map = some mapRecord.map ∧ ready.setup.sources = some sourceTable :=
  ⟨(by intro _ h; cases h), congrArg Host.Outcome.next (by decide +kernel : after .run ready = running), by decide, by decide⟩

theorem witness_FlagsStaySet :
    running.path.held = [] ∧ ¬ running.MayClearFlags (.drop .img) ∧
      exec (.drop .img) running = .next (after (.drop .img) running) ∧
      (running.flagged 13).flagSet .strayWrite = true := by
  refine ⟨by decide, ?_, rfl, by decide⟩
  rintro (⟨_, h⟩ | h | h | ⟨_, h, _⟩) <;> cases h

/-- RUN with piece 2001 open on FACE, a piece record issued with tag 0, and a CREDIT waiting. -/
def busy : State :=
  { withIssued [injectedItem 0 true] (withQueue [{ record := .piece pieceRec, state := .issued 0 }]
      (withEntries [{ e2001 with
        sides := { face := { SideRecord.notSeen with state := .opened, expected := 1 }, back := SideRecord.notSeen } }])) with
    pending := [.credit .blk 63]
    path :=
      { lanesUp with
        lanes := { lanesUp.lanes with rpt := { state := .up, credits := 7, outstanding := 1 } }
        issued := [injectedItem 0 true] } }

theorem busy_completes : step busy = .next (after (.credit .blk 63) { busy with pending := [] }) := rfl

theorem witness_StepKeepsTableLaw : busy.TableLaw ∧ busy.QuietLaw ∧ ∃ t, step busy = .next t :=
  ⟨⟨by decide, by decide, by decide⟩, (by intro h; cases h), _, busy_completes⟩

theorem witness_StepKeepsGenerationLaw : busy.TableLaw ∧ busy.GenerationLaw ∧ ∃ t, step busy = .next t :=
  ⟨witness_StepKeepsTableLaw.1, ⟨by decide, by decide, by decide⟩, _, busy_completes⟩

theorem witness_StepKeepsMisprintLaw : busy.MisprintLaw ∧ ∃ t, step busy = .next t :=
  ⟨⟨by decide, by decide⟩, _, busy_completes⟩

theorem witness_StepKeepsOpenedLaw :
    busy.TableLaw ∧ busy.OpenedLaw ∧ busy.tally.unsaturated ∧ ∃ t, step busy = .next t :=
  ⟨witness_StepKeepsTableLaw.1, (by intro _; decide), ⟨by decide, by decide⟩, _, busy_completes⟩

theorem busy_reportLaw : busy.ReportLaw := ⟨by decide, by decide, rfl, by intro h; exact absurd rfl h⟩

theorem witness_StepKeepsReportLaw : busy.ReportLaw ∧ ∃ t, step busy = .next t :=
  ⟨busy_reportLaw, _, busy_completes⟩

theorem witness_StepKeepsLinkLaw : busy.ReportLaw ∧ busy.LinkLaw ∧ ∃ t, step busy = .next t :=
  ⟨busy_reportLaw, ⟨by decide, by decide, by decide, by decide⟩, _, busy_completes⟩

theorem witness_StepKeepsPathLaw : busy.PathLaw ∧ busy.HoldingLaw ∧ ∃ t, step busy = .next t :=
  ⟨⟨by decide, by decide, by decide, by decide, by decide, (by intro l; cases l <;> exact ⟨by decide, by decide⟩),
      (by intro l; cases l <;> decide)⟩, ⟨by decide, by decide⟩, _, busy_completes⟩

theorem comparison_inRange {c : Channel} {m : CompareMode} {lo hi : Nat} (h : lo ≤ 1023 ∧ hi ≤ 1023)
    (o : m = .inside ∨ m = .outside → lo ≤ hi) : ({ channel := c, mode := m, lo := lo, hi := hi } : Comparison).InRange :=
  ⟨h.1, h.2, o⟩

theorem defaultSettings_inRange : Settings.default.InRange where
  black := by intro sd; cases sd <;> decide
  gain := by intro sd; cases sd <;> decide
  tests := by
    intro k
    cases k
    · exact ⟨comparison_inRange (by decide) (by decide), (by intro q h; cases h), by decide⟩
    · exact ⟨comparison_inRange (by decide) (by decide), (by intro q h; cases h), by decide⟩
    · exact ⟨comparison_inRange (by decide) (by decide),
        (by intro q h; cases h; exact comparison_inRange (by decide) (by decide)), by decide⟩
  zw := by decide
  zh := by decide
  lines := by decide
  faults := by decide
  ranks := by decide
  margin := by decide
  xBand := by decide
  yBand := by decide
  distance := by decide

theorem defaultTraySet_inRange : TraySet.default.InRange := ⟨by decide, by decide, by decide, by decide⟩

theorem witness_StepKeepsSettingsLaw : busy.SettingsLaw ∧ ∃ t, step busy = .next t :=
  ⟨⟨defaultSettings_inRange, (by intro g h; cases h), defaultSettings_inRange, defaultTraySet_inRange,
    defaultTraySet_inRange⟩, _, busy_completes⟩

theorem witness_StepKeepsPlacementLaw : busy.PlacementLaw ∧ ∃ t, step busy = .next t :=
  ⟨placement_of_setup _ rfl, _, busy_completes⟩

/-! ## Witnesses: the path unit -/

/-- A write of one beat to ordinary memory on BLK. -/
def plain : Request := wr 0x20000000 7 0 (le 8 1)

/-- The same write with another class tag. -/
def plainOf (cls : Nat) : Request := wr 0x20000000 7 cls (le 8 1)

theorem unseen_of_page (s : State) (r : Request) (hr : r = plain ∨ r = plainOf 1) (h : s.setup.map = setupUnit.map)
    (b : s.setup.straps = setupUnit.straps) : s.UnseenByWindows r := by
  have hp : ∀ m, setupUnit.map = some m → m = mapRecord.map := by intro m hm; injection hm with hm; exact hm.symm
  obtain rfl | rfl := hr <;>
    exact .inr (.inr ⟨by rw [b]; decide, by
      intro m hm
      obtain rfl := hp m (h ▸ hm)
      exact ⟨by intro sd; cases sd <;> decide, by decide, by decide⟩⟩)

/-- The state with BLK's queue full. -/
def blkFull : State :=
  { running with path := { lanesUp with queues := { img := [], ctl := [], blk := List.replicate 8 { request := plain, plan := [] } } } }

/-- A request is held although its lane has room, as within an event that frees a place. -/
def oneHeld : State := { running with path := { lanesUp with held := [plain] } }

/-- A request is held behind BLK's full queue. -/
def blkHeld : State := { blkFull with path := { blkFull.path with held := [plain] } }

/-- A request of class 1 is held, and the map that moves its class to CTL. -/
def classOneHeld : State := { blkFull with path := { blkFull.path with held := [plainOf 1] } }
def moveToCtl : Vector UpLane 7 := #v[.ctl, .blk, .blk, .blk, .blk, .blk, .blk]
def classOneMoved : State := { classOneHeld with setup := { classOneHeld.setup with laneMap := moveToCtl } }

theorem witness_RequestIsQueuedOrHeld :
    (plain.wellFormed = true ∧ running.AcceptsAtOnce plain ∧ running.UnseenByWindows plain) ∧
    plain.classTag = 0 ∧
    ((rd 0 1 0 1).classTag.toNat = (0 : Fin 7).val + 1 ∧ (rd 0 1 0 7).classTag.toNat = (6 : Fin 7).val + 1) ∧
    ((∀ h ∈ blkFull.path.held, h.classTag ≠ plain.classTag) ∧ blkFull.hasRoom (blkFull.laneOf plain) = false) ∧
    (∃ h ∈ blkHeld.path.held, h.classTag = plain.classTag) ∧
    (∀ h ∈ blkHeld.path.held, blkHeld.hasRoom (blkHeld.laneOf h) = false) ∧
    (oneHeld.path.held = [plain] ∧ oneHeld.path.behind = [] ∧ oneHeld.hasRoom (oneHeld.laneOf plain) = true ∧
      oneHeld.UnseenByWindows plain) ∧
    (classOneHeld.path.held = [plainOf 1] ∧ classOneHeld.path.behind = [] ∧
      classOneHeld.hasRoom (classOneHeld.laneOf (plainOf 1)) = false ∧
      (∀ i : Fin 7, moveToCtl[i].toLane.code =
        ({ lanes := #v[1, 2, 2, 2, 2, 2, 2] } : LaneMapRecord).lanes[i].toNat) ∧
      classOneMoved.hasRoom (classOneMoved.laneOf (plainOf 1)) = true ∧ classOneMoved.UnseenByWindows (plainOf 1)) :=
  ⟨⟨by decide, ⟨by decide, by decide⟩, unseen_of_page _ _ (.inl rfl) rfl rfl⟩, by decide, by decide, by decide, by decide, by decide,
    ⟨by decide, by decide, by decide, unseen_of_page _ _ (.inl rfl) rfl rfl⟩,
    by decide, by decide, by decide, by decide, by decide, unseen_of_page _ _ (.inr rfl) rfl rfl⟩

/-- R170: a request held for its class arrives at the LANE_MAP capture that gives its lane room, before a later slot of the
same write, here one that moves the class back to the lane that is full. -/
theorem test_held_request_arrives_at_its_lane_map :
    let s : State := { classOneHeld with setup := { classOneHeld.setup with laneMap := #v[.blk, .img, .blk, .blk, .blk, .blk, .blk] } }
    let slot : Nat → List Byte := fun lane => [0] ++ List.replicate 7 (BitVec.ofNat 8 lane) ++ List.replicate 48 0 ++ le 8 3
    let t := after (.setupWrite (wr 0x00810000 0 2 (slot 1 ++ slot 2))) s
    (t.path.queues.ctl.map (fun q => q.request.classTag), t.path.held, t.setup.laneMap) =
      ([1], [], Vector.replicate 7 .blk) := by
  decide +kernel

theorem witness_GrantOpensOrDropsAnOpeningLane : (State.reset.lane .blk).state = .opening := by decide

/-- BLK is UP with a full queue and no credit. -/
def noCredit : State := withLane .blk (up 0) blkFull

/-- IMG is CLOSING with nothing outstanding. -/
def closing : State := withLane .img { state := .closing, credits := 5, outstanding := 0 } running

theorem witness_CreditAddsUpToItsTop :
    (((withLane .img (up 63) running).lane .img).credits ≤ 63) ∧
    ((noCredit.lane .blk).state = .up ∧ (noCredit.lane .blk).credits = 0 ∧ noCredit.hasRequest .blk = true ∧
      noCredit.path.issued.length < 128 ∧ (63 : BitVec 6) ≠ 0 ∧
      exec (.credit .blk 63) noCredit = .next (after (.credit .blk 63) noCredit)) ∧
    ((closing.lane .img).state = .closing ∧ (closing.lane .img).outstanding = 0) :=
  ⟨by decide, ⟨by decide, by decide, by decide, by decide, by decide, rfl⟩, by decide⟩

theorem witness_LanesOpenCloseAndDrop :
    ((withLane .rpt LaneUnit.down running).lane .rpt).state = .down ∧ (running.lane .rpt).state ≠ .down ∧
    (4 ≤ (4 : BitVec 8).toNat ∧ 4 ≤ (255 : BitVec 8).toNat) ∧
    ((running.lane .img).state = .up ∧ (running.lane .img).outstanding = 0) ∧
    ((busy.lane .rpt).state = .up ∧ (busy.lane .rpt).outstanding ≠ 0) ∧
    ((withLane .rpt LaneUnit.down running).lane .rpt).state ≠ .up ∧
    ((closing.lane .img).state = .closing ∧ (closing.lane .img).outstanding = 0) := by
  decide

/-- The guard count replaced. -/
def guardAt (n : Nat) (s : State) : State := { s with path := { s.path with guard := n } }

theorem witness_ArbiterGrantsByPriorityAndGuard :
    ((guardAt 16 blkFull).path.guard = 16 ∧ (guardAt 16 blkFull).eligible .blk = true) ∧
    ((guardAt 15 blkFull).path.guard ≠ 16 ∧ (guardAt 16 running).eligible .blk = false) ∧
    running.granted = none := by
  decide

/-- IMG's and BLK's queues full with the guard count at 0. -/
def contended : State :=
  { running with path :=
      { lanesUp with
        queues := { img := List.replicate 16 { request := plain, plan := [] }, ctl := [], blk := [{ request := plain, plan := [] }] } } }

/-- The states that issues from `contended` pass through. -/
def issues : Nat → State
  | 0 => contended
  | n + 1 => after .issue (issues n)

theorem witness_BlkIsGrantedWithinSeventeenGrants :
    (issues 0).path.guard ≤ 16 ∧ (∀ k < 17, exec .issue (issues k) = .next (issues (k + 1))) ∧
      (∀ k < 17, (issues k).eligible .blk = true) := by
  refine ⟨by decide, ?_, by decide +kernel⟩
  intro k _
  have h : ∀ s, exec .issue s = .next (after .issue s) := fun s => rfl
  exact h (issues k)

theorem witness_IssueSendsTheOldestRequest :
    (contended.granted = some UpLane.img.toLane ∧
      contended.path.queues.get .img =
        { request := plain, plan := [] } :: List.replicate 15 { request := plain, plan := [] } ∧
      contended.path.held = []) ∧
    (blkHeld.granted = some UpLane.blk.toLane ∧
      blkHeld.path.queues.get .blk =
        { request := plain, plan := [] } :: List.replicate 7 { request := plain, plan := [] } ∧
      (List.replicate 7 ({ request := plain, plan := [] } : Queued)).length < UpLane.blk.capacity ∧
      blkHeld.path.held = [plain] ∧ blkHeld.path.behind = [] ∧ blkHeld.laneOf plain = .blk ∧
      blkHeld.UnseenByWindows plain) :=
  ⟨by decide, by decide, by decide, by decide, by decide, by decide, by decide, unseen_of_page _ _ (.inl rfl) rfl rfl⟩

/-- A piece record waits behind an issued one. -/
def pieceWaits : State :=
  withIssued [injectedItem 0 true] (withQueue
    [{ record := .piece pieceRec, state := .issued 0 }, waits (.piece pieceRec)] running)

/-- Bank B's tray record waits. -/
def trayWaits : State :=
  withQueue [waits (.tray { data := seal2, counts := Counts.zero })]
    { running with tally := { running.tally with other := .sealed Counts.zero seal2 } }

theorem witness_IssueSendsTheOldestRecord :
    (pieceWaits.granted = some .rpt ∧ pieceWaits.setup.map = some mapRecord.map ∧ pieceWaits.LowestFreeTag 1 ∧
      pieceWaits.report.queue =
        [{ record := .piece pieceRec, state := .issued 0 }] ++ { record := .piece pieceRec, state := .waiting } :: [] ∧
      (∀ e ∈ [({ record := .piece pieceRec, state := .issued 0 } : ReportEntry)], e.state ≠ .waiting)) ∧
    (trayWaits.granted = some .rpt ∧ trayWaits.setup.map = some mapRecord.map ∧ trayWaits.LowestFreeTag 0 ∧
      trayWaits.report.queue = [] ++ { record := .tray { data := seal2, counts := Counts.zero }, state := .waiting } :: [] ∧
      (∀ e ∈ ([] : List ReportEntry), e.state ≠ .waiting) ∧ trayWaits.tally.other = .sealed Counts.zero seal2) :=
  ⟨⟨by decide +kernel, by decide, ⟨by decide, by decide, by decide⟩, by decide, by decide⟩,
    by decide +kernel, by decide, ⟨by decide, by decide, by decide⟩, by decide, by decide, by decide⟩

theorem witness_ResponseReturnsUpstream :
    ((withIssued [forwardedItem .read [(0, 5)]] running).Answers 3 7 [] (forwardedItem .read [(0, 5)]) [] ∧
      (forwardedItem .read [(0, 5)]).link = .forwarded) ∧
    ((withIssued [forwardedItem .write []] running).Answers 3 7 [] (forwardedItem .write []) [] ∧
      (forwardedItem .write []).link = .forwarded) ∧
    ((([(0, 5), (7, 6)] : FillPlan).map Prod.fst).Nodup ∧ ((7, 6) : Nat × Byte) ∈ ([(0, 5), (7, 6)] : FillPlan) ∧
      7 < (le 8 0).length ∧ 3 ∉ ([(0, 5), (7, 6)] : FillPlan).map Prod.fst) :=
  ⟨⟨⟨rfl, rfl, rfl, by intro j h; cases h⟩, rfl⟩, ⟨⟨rfl, rfl, rfl, by intro j h; cases h⟩, rfl⟩, by decide⟩

theorem witness_ResponseToAPieceRecord :
    (busy.Answers 15 0 [] (injectedItem 0 true) [] ∧ (injectedItem 0 true).link = .injected true ∧
      busy.report.queue = [] ++ { record := .piece pieceRec, state := .issued (0 : BitVec 8).toNat } :: [] ∧
      (∀ e ∈ ([] : List ReportEntry), e.state ≠ .issued (0 : BitVec 8).toNat) ∧
      ((∃ c d, busy.tally.other = .sealed c d) → busy.report.hasTray = true)) ∧
    ((withIssued [injectedItem 7 false] running).Answers 15 7 [] (injectedItem 7 false) [] ∧ (injectedItem 7 false).link = .injected false) ∧
    (∀ i ∈ running.path.issued, ¬(i.source = 15 ∧ i.tag = 0)) := by
  refine ⟨⟨⟨rfl, rfl, rfl, by intro j h; cases h⟩, rfl, rfl, (by intro e h; cases h), ?_⟩,
    ⟨⟨rfl, rfl, rfl, by intro j h; cases h⟩, rfl⟩, by decide⟩
  rintro ⟨c, d, h⟩
  cases h

/-- Bank B's tray record is issued with tag 0; the pending close is `p`. -/
def trayIssued (p : Option Pending) : State :=
  withIssued [injectedItem 0 true] (withQueue [{ record := .tray { data := seal2, counts := Counts.zero }, state := .issued 0 }]
    { running with tally := { running.tally with other := .writing Counts.zero seal2, pending := p } })

theorem witness_ResponseToATrayRecord (p : Option Pending) :
    (trayIssued p).Answers 15 0 [] (injectedItem 0 true) [] ∧ (injectedItem 0 true).link = .injected true ∧
      (trayIssued p).report.queue =
        [] ++ { record := .tray { data := seal2, counts := Counts.zero }, state := .issued (0 : BitVec 8).toNat } :: [] ∧
      (∀ e ∈ ([] : List ReportEntry), e.state ≠ .issued (0 : BitVec 8).toNat) ∧
      (∀ e ∈ ([] : List ReportEntry) ++ [], e.isTray = false) ∧ (trayIssued p).report.queue.length ≤ 8 ∧
      (trayIssued p).tally.other = .writing Counts.zero seal2 ∧ (trayIssued p).tally.pending = p :=
  ⟨⟨rfl, rfl, rfl, by intro j h; cases h⟩, rfl, rfl, (by intro e h; cases h), (by intro e h; cases h), Nat.le_of_ble_eq_true rfl,
    rfl, rfl⟩

/-! ## Witnesses: the setup capture unit -/

theorem witness_OnceOnlyRecordsAreCheckedInOrder : mapRecord.map.inRange = true ∧ mapRecord.map.placed 0x0081 = true := by
  decide

/-- A lane map record: tag 1 IMG, tag 2 CTL, the others BLK but for tag 7, which has the code `c`. -/
def laneMapRecord (c : BitVec 8) : LaneMapRecord := { lanes := #v[0, 1, 2, 2, 2, 2, c] }

/-- A comparison record: L ABOVE 600. -/
def aboveRecord : ComparisonRecord := { channel := 2, mode := 0, lo := 0, hi := 600 }

/-- A CLASS_TEST record of PH with E 400. -/
def phRecord : ClassTestRecord :=
  { cls := 0, primary := aboveRecord, secondaryPresent := false, secondary := aboveRecord, runFloor := 6, weight := 16
    minLines := 12, minHits := 300, earlyHits := 400 }

/-- A GEOMETRY record at the least values in range. -/
def geometryRecord : GeometryRecord := { zw := 16, zh := 8, lineLimit := 256, lineFaultLimit := 15 }

/-- A DECISION record with x band 20..160. -/
def decisionRecord : DecisionRecord :=
  { rankPh := 1, rankCol := 2, rankFl := 3, margin := 80, tolerance := 8, xMin := 20, xMax := 160, yMin := 4, yMax := 160 }

/-- A CORRECTION record of a side byte. -/
def correctionRecord (side : BitVec 8) : CorrectionRecord :=
  { side := side, v := { black := 40, gain := 300 }, r := { black := 0, gain := 256 }, l := { black := 0, gain := 256 } }

/-- A CLASS_TEST record of FL with a secondary comparison, limits and E beyond their tops. -/
def flRecord : ClassTestRecord :=
  { phRecord with
    cls := 2, primary := { channel := 0, mode := 2, lo := 1023, hi := 1024 }, secondaryPresent := true
    secondary := { channel := 1, mode := 3, lo := 1024, hi := 1023 }, earlyHits := 40801 }

theorem witness_PieceBoundaryRecordsAreStagedAppliedOrRefused :
    running.mode ≠ .standby ∧ (ready.mode = .standby ∧ ready.entries = []) ∧
      (sideOfByte (correctionRecord 0).side = some .face ∧ sideOfByte (correctionRecord 1).side = some .back) ∧
      (phRecord.secondaryPresent = false ∧
        phRecord.test = some (.ph, { ClassTest.defaultPh with earlyHits := 400 })) ∧
      (flRecord.secondaryPresent = true ∧ flRecord.test = some (.fl,
        { primary := { channel := .v, mode := .inside, lo := 1023, hi := 1023 }
          secondary := some { channel := .r, mode := .outside, lo := 1023, hi := 1023 }
          runFloor := 6, minLines := 12, minHits := 300, weight := 16, earlyHits := 40800 })) ∧
      (geometryRecord.inRange = true ∧ decisionRecord.settings.inRange = true) ∧
      1 < (correctionRecord 2).side.toNat ∧ ({ phRecord with earlyHits := 299 } : ClassTestRecord).test = none ∧
      ({ geometryRecord with lineFaultLimit := 16 } : GeometryRecord).lineFaultLimit.toNat > 15 ∧
      ¬([(2 : BitVec 8).toNat, (2 : BitVec 8).toNat, (3 : BitVec 8).toNat].Perm [1, 2, 3]) ∧
      min ({ decisionRecord with xMin := 161 } : DecisionRecord).xMax.toNat 1023 <
        min ({ decisionRecord with xMin := 161 } : DecisionRecord).xMin.toNat 1023 := by
  decide

/-- The TRAY_SET record of the defaults, with an age limit. -/
def traySetRecord (age : BitVec 8) : TraySetRecord :=
  { actions := #v[1, 5, 5, 2, 5, 3, 4, 5], stackers := #v[0, 1, 2, 3, 4, 4, 5, 6], diePh := 0, dieCol := 1, pieceLimit := 0
    ageLimit := age }

theorem witness_LaneMapAlarmAndTraySetReplaceTheWhole :
    (running.path.held = [] ∧ (∀ i : Fin 7, (laneMapRecord 2).lanes[i].toNat < 3) ∧
      (∃ i : Fin 7, 3 ≤ (laneMapRecord 3).lanes[i].toNat)) ∧
    ((traySetRecord 2).inRange = true ∧ ready.mode = .standby) ∧ ((traySetRecord 11).inRange = true ∧ running.mode ≠ .standby) ∧
    ((traySetRecord 12).inRange = false ∧ (traySetRecord 1).inRange = false) := by
  decide

/-- The tail of setup slot 15 with a record kind, from a source. -/
def tailWrite (src : Nat) (kind : Nat) : Request := wr (0x00810000 + 64 * 15 + 56) src 0 (le 8 kind)

/-- The body's first beat of setup slot 0. -/
def bodyWrite : Request := wr 0x00810000 0 0 (le 8 1)

theorem setupRequest_fits (r : Request) (k : Fin 16) (h : r.wellFormedAs .write = true) (c : reqCrosses r = false)
    (src : r.source ≠ 15) (l : r.classTag = 0) (i : reqInside r (running.setup.straps.toNat * 65536 + 64 * k.val) 64 = true) :
    r.wellFormedAs .write = true ∧ reqCrosses r = false ∧ r.source ≠ 15 ∧ running.AcceptsAtOnce r ∧ running.PlacementLaw ∧
      reqInside r (running.setup.straps.toNat * 65536 + 64 * k.val) 64 = true :=
  ⟨h, c, src, ⟨rfl, by rw [show running.laneOf r = .blk by simp [State.laneOf, l]]; rfl⟩, placement_of_setup _ rfl, i⟩

theorem witness_SetupWriteShadowsItsSlot :
    ((tailWrite 3 4).wellFormedAs .write = true ∧ reqCrosses (tailWrite 3 4) = false ∧ (tailWrite 3 4).source ≠ 15 ∧
      running.AcceptsAtOnce (tailWrite 3 4) ∧ running.PlacementLaw ∧
      reqInside (tailWrite 3 4) (running.setup.straps.toNat * 65536 + 64 * (15 : Fin 16).val) 64 = true) ∧
    (running.setup.sources = some sourceTable ∧ sourceTable.hosts.getLsbD (tailWrite 3 4).source.toNat = false) ∧
    (reqInside bodyWrite (running.setup.straps.toNat * 65536 + 64 * (0 : Fin 16).val) 64 = true ∧
      running.AcceptsAtOnce bodyWrite ∧ sourceTable.hosts.getLsbD bodyWrite.source.toNat = true ∧
      ∃ i : Fin 8, writtenAt bodyWrite (running.setup.straps.toNat * 65536 + 56 + i.val) = none) ∧
    (sourceTable.hosts.getLsbD (tailWrite 0 4).source.toNat = true ∧ running.AcceptsAtOnce (tailWrite 0 4) ∧
      ∀ i : Fin 8, writtenAt (tailWrite 0 4) (running.setup.straps.toNat * 65536 + 64 * 15 + 56 + i.val) ≠ none) ∧
    (∀ src ∈ [0, 3], ∀ o ∈ [60, 1020], let r := wr (0x00810000 + o) src 0 (le 8 4 ++ le 8 1)
      r.wellFormedAs .write = true ∧ reqCrosses r = false ∧ r.source ≠ 15 ∧ running.AcceptsAtOnce r ∧
        reqTouches r (running.setup.straps.toNat * 65536) 1024 = true ∧ running.setup.map = some mapRecord.map ∧
        reqTouches r mapRecord.map.exit 512 = false ∧ reqTouches r mapRecord.map.status 512 = false ∧
        (∀ sd, reqInside r (mapRecord.map.rings.get sd).base ((mapRecord.map.rings.get sd).count * 4096) = false) ∧
        sourceTable.hosts.getLsbD r.source.toNat = decide (src = 0)) :=
  ⟨setupRequest_fits _ 15 (by decide) (by decide) (by decide) (by decide) (by decide), by decide,
    ⟨by decide, ⟨by decide, by decide⟩, by decide, by decide⟩, ⟨by decide, ⟨by decide, by decide⟩, by decide⟩,
    (by
      intro src hs o ho
      simp only [List.mem_cons, List.not_mem_nil, or_false] at hs ho
      obtain rfl | rfl := hs <;> obtain rfl | rfl := ho <;>
        exact ⟨by decide, by decide, by decide, ⟨rfl, by decide⟩, by decide, rfl, by decide, by decide,
          (by intro sd; cases sd <;> decide), by decide⟩)⟩

/-- A slot's 64 bytes with a record kind, every body byte being `b`. -/
def slotOfKind (kind : Nat) (b : Byte) : List Byte := List.replicate 56 b ++ le 8 kind

theorem witness_CaptureTakesTheRecordOfItsKind :
    running.path.held = [] ∧
      [1, 2, 3, 4, 5, 6, 7, 8, 9, 10].map (fun k => (byteAt (slotOfKind k 1) 56).toNat) = [1, 2, 3, 4, 5, 6, 7, 8, 9, 10] ∧
      (Instr.run ∈ directiveOf (byteAt (slotOfKind 4 1) 0) (byteAt (slotOfKind 4 1) 1) ∧
        Instr.restart ∈ directiveOf (byteAt (slotOfKind 4 11) 0) (byteAt (slotOfKind 4 11) 1)) ∧
      (directiveOf (byteAt (slotOfKind 4 0) 0) (byteAt (slotOfKind 4 0) 1) = none ∧
        directiveOf (byteAt (slotOfKind 4 12) 0) (byteAt (slotOfKind 4 12) 1) = none) ∧
      (byteAt (slotOfKind 0 1) 56).toNat = 0 ∧ 10 < (byteAt (slotOfKind 11 1) 56).toNat := by
  decide

/-! ## Witnesses: directives and what follows from them -/

/-- DRAIN with an empty table. -/
def draining : State := { running with mode := .drain }

/-- The bank that is not ACTIVE, the pending close and the report queue replaced. -/
def withBank (o : OtherBank) (p : Option Pending) (q : List ReportEntry) : State :=
  withQueue q { running with tally := { running.tally with other := o, pending := p } }

/-- Bank B WRITING. -/
def writing : OtherBank := .writing Counts.zero seal2

theorem witness_DrainEndsOnAnEmptyTable :
    ((withEntries [e2001]).mode = .run ∧ (withEntries [e2001]).entries ≠ []) ∧ ready.mode ≠ .run ∧ draining.mode ≠ .run ∧
      (running.mode ≠ .drain ∨ running.entries ≠ []) ∧
      (running.entries = [] ∧ running.tally.other = .free ∧ running.NoTrayQueued ∧ running.mode = .run) ∧
      (draining.entries = [] ∧ draining.tally.other = .free ∧ draining.NoTrayQueued ∧ draining.mode = .drain) ∧
      ((withBank writing none []).entries = [] ∧ (withBank writing none []).tally.other ≠ .free ∧
        (withBank writing none []).mode = .run) ∧
      (({ withBank writing none [] with mode := .drain } : State).entries = [] ∧
        ({ withBank writing none [] with mode := .drain } : State).tally.other ≠ .free) :=
  ⟨by decide, by decide, by decide, by decide, ⟨rfl, rfl, (by intro e h; cases h), rfl⟩,
    ⟨rfl, rfl, (by intro e h; cases h), rfl⟩, by decide, by decide⟩

theorem witness_StbyAbortsEveryEntry :
    ready.mode = .standby ∧ busy.mode ≠ .standby ∧ busy.TableLaw ∧ busy.GenerationLaw ∧
      ((1 : Fin 12) ≠ Disposition.aborted.code) ∧
      (busy.trays.inForce.pieceLimit = 0 ∧ busy.tally.other = .free) ∧
      ({ busy with tally := { busy.tally with other := writing } } : State).tally.other ≠ .free :=
  ⟨rfl, by decide, witness_StepKeepsTableLaw.1, witness_StepKeepsGenerationLaw.2.1, by decide, by decide, by decide⟩

theorem witness_RunClrsCancelAndRestartDirectives : ready.mode = .standby ∧ running.mode ≠ .standby ∧ draining.mode ≠ .standby := by
  decide

theorem witness_TrayClosesWaitAndMerge :
    ((withBank .free none []).tally.other = .free ∧ (withBank .free none []).NoTrayQueued) ∧
    ((withBank (.writing Counts.zero seal2) none []).tally.other ≠ .free ∧
      (withBank (.writing Counts.zero seal2) none []).tally.pending = none) ∧
    ((withBank (.writing Counts.zero seal2) (some { reason := .limit, merged := false }) []).tally.other ≠ .free ∧
      (withBank (.writing Counts.zero seal2) (some { reason := .limit, merged := false }) []).tally.pending =
        some { reason := .limit, merged := false }) ∧
    ((withBank .free (some { reason := .limit, merged := true }) [waits (.piece pieceRec)]).tally.other = .free ∧
      (withBank .free (some { reason := .limit, merged := true }) [waits (.piece pieceRec)]).tally.pending =
        some { reason := .limit, merged := true } ∧
      (withBank .free (some { reason := .limit, merged := true }) [waits (.piece pieceRec)]).NoTrayQueued) ∧
    ((withBank .free none []).tally.other ≠ .free ∨ (withBank .free none []).tally.pending = none) ∧
    ((withBank (.sealed Counts.zero seal2) none (List.replicate 7 (waits (.piece pieceRec)))).tally.other =
        .sealed Counts.zero seal2 ∧
      (withBank (.sealed Counts.zero seal2) none (List.replicate 7 (waits (.piece pieceRec)))).report.queue.length < 8 ∧
      (withBank (.sealed Counts.zero seal2) none (List.replicate 7 (waits (.piece pieceRec)))).NoTrayQueued) ∧
    8 ≤ (withBank (.sealed Counts.zero seal2) none (List.replicate 8 (waits (.piece pieceRec)))).report.queue.length :=
  ⟨⟨rfl, (by intro e h; cases h)⟩, ⟨by decide, rfl⟩, ⟨by decide, rfl⟩,
    ⟨rfl, rfl, (by intro e h; simp only [withBank, withQueue, List.mem_singleton] at h; subst h; rfl)⟩, .inr rfl,
    ⟨rfl, by decide, (by intro e h; obtain ⟨-, rfl⟩ := List.mem_replicate.mp h; rfl)⟩, by decide⟩

/-! ## Witnesses: image writes -/

/-- FACE's ring in section 11.6. -/
def faceRing : Ring := { base := 0x10000000, count := 64 }

/-- A write of the FACE head at an offset of slot 17 of its ring. -/
def faceWrite (offset : Nat) (bs : List Byte) : Request := wr (0x10000000 + 4096 * 17 + offset) 1 0 bs

/-- A line header: piece, index, marks byte, S, t and u. -/
def headerBytes (piece index marks samples top bottom : Nat) : List Byte :=
  le 2 piece ++ le 2 index ++ le 1 marks ++ [0] ++ le 2 samples ++ le 2 top ++ le 2 bottom ++ le 4 0

/-- The LEAD header of piece 2001 on FACE at the least S, with u = S - 1. -/
def leadBytes : List Byte := headerBytes 2001 0 2 64 0 63

/-- A FACE write is accepted in every state that has the setup, the lanes and the empty queues of `running`. -/
theorem faceWrite_accepted (s : State) (r : Request) (hs : s.setup = setupUnit) (hp : s.path = lanesUp)
    (hm : s.mode ≠ .standby) (f : r.wellFormedAs .write = true) (src : r.source = 1) (l : r.classTag = 0)
    (i : reqInside r faceRing.base (faceRing.count * 4096) = true) (p : reqCrosses r = false) :
    s.ImageWriteAccepted .face faceRing r where
  placed := placement_of_setup s hs
  form := f
  mode := hm
  map := ⟨mapRecord.map, by rw [hs]; rfl, rfl⟩
  head := ⟨sourceTable, by rw [hs]; rfl, by rw [src]; rfl⟩
  inside := i
  page := p
  room := by
    refine ⟨by rw [hp]; rfl, ?_⟩
    have h : s.laneOf r = .blk := by simp [State.laneOf, l]
    rw [h, State.hasRoom, hp]
    rfl

/-- The header write with its last byte not enabled. -/
def holedHeader : Request :=
  { faceWrite 0 leadBytes with payload := (leadBytes.take 15).map (fun b => (true, b)) ++ [(false, 0)] }

/-- The header bytes of piece 2001's LEAD on FACE, in a header write of its own. -/
abbrev leadWrite : Request := faceWrite 0 leadBytes

theorem header_accepted (s : State) (r : Request) (hr : r = leadWrite ∨ r = holedHeader ∨ r = faceWrite 8 (le 8 0))
    (hs : s.setup = setupUnit) (hp : s.path = lanesUp) (hm : s.mode ≠ .standby) : s.ImageWriteAccepted .face faceRing r := by
  obtain rfl | rfl | rfl := hr <;>
    exact faceWrite_accepted s _ hs hp hm (by decide) (by decide) (by decide) (by decide) (by decide)

/-- Line 0 of piece 2001 in progress in slot 17, with the next sample `k` of `n`. -/
def lineAt (n k : Nat) (inspecting : Bool) : Line :=
  { piece := 2001, x := 0, slot := 17, samples := n, top := 0, bottom := 63, lead := true, trail := false, double := false
    next := k, inspecting := inspecting }

/-- Piece 2001 with its FACE side OPEN after one line. -/
def opened2001 : Entry :=
  { e2001 with
    sides := { face := { SideRecord.notSeen with state := .opened, expected := 1 }, back := SideRecord.notSeen } }

/-- RUN with that line in progress on FACE. -/
def inLine (n k : Nat) (inspecting : Bool) : State :=
  { withEntries [opened2001] with
    parsers := { face := .inLine (lineAt n k inspecting), back := .waitHeader }
    zones := { face := { ZoneWork.idle with state := .leading, owner := some 2001 }, back := ZoneWork.idle } }

/-- The same with the line in progress in slot 16. -/
def inOtherSlot : State :=
  { inLine 64 0 true with parsers := { face := .inLine { lineAt 64 0 true with slot := 16 }, back := .waitHeader } }

theorem witness_OnlyHeadersStartALine :
    ((∀ ln, running.parsers.get .face ≠ .inLine ln) ∧
      (running.ImageWriteAccepted .face faceRing (faceWrite 8 (le 8 0)) ∧ 8 ≤ ringOffset faceRing (faceWrite 8 (le 8 0))) ∧
      (running.ImageWriteAccepted .face faceRing holedHeader ∧ ringOffset faceRing holedHeader = 0 ∧
        ∃ i : Fin 16, writtenAt holedHeader (reqLo holedHeader + i.val) = none) ∧
      (running.ImageWriteAccepted .face faceRing leadWrite ∧ ringOffset faceRing leadWrite = 0 ∧ leadWrite.beats = 2 ∧
        writtenBytes leadWrite (reqLo leadWrite) 16 = some leadBytes)) ∧
    (inOtherSlot.ImageWriteAccepted .face faceRing (faceWrite 8 (le 8 0)) ∧
      inOtherSlot.parsers.get .face = .inLine { lineAt 64 0 true with slot := 16 } ∧
      16 ≠ ringSlot faceRing (faceWrite 8 (le 8 0))) ∧
    ((inLine 64 0 true).ImageWriteAccepted .face faceRing holedHeader ∧
      (inLine 64 0 true).ImageWriteAccepted .face faceRing leadWrite ∧
      (inLine 64 0 true).parsers.get .face = .inLine (lineAt 64 0 true)) :=
  ⟨⟨(by intro ln h; cases h), ⟨header_accepted _ _ (.inr (.inr rfl)) rfl rfl (by decide), by decide⟩,
      ⟨header_accepted _ _ (.inr (.inl rfl)) rfl rfl (by decide), by decide, 15, by decide⟩,
      header_accepted _ _ (.inl rfl) rfl rfl (by decide), by decide⟩,
    ⟨header_accepted _ _ (.inr (.inr rfl)) rfl rfl (by decide), by decide⟩,
    header_accepted _ _ (.inr (.inl rfl)) rfl rfl (by decide), header_accepted _ _ (.inl rfl) rfl rfl (by decide), rfl⟩

/-- DRAIN with piece 2000 in the table, its FACE side closed. -/
def drainWith2000 (last : Option Nat) : State :=
  { running with
    mode := .drain, lastUninspected := last
    entries := [{ Entry.fresh 2000 0 with
      sides := { face := { SideRecord.notSeen with state := .closed, n := 300 }, back := SideRecord.notSeen } }] }

/-- RUN with 11 entries whose FACE sides have closed. -/
def elevenClosed : State :=
  withEntries ((List.range 11).map fun i =>
    { Entry.fresh (1990 + i) 0 with
      sides := { face := { SideRecord.notSeen with state := .closed, n := 300 }, back := SideRecord.notSeen } })

/-- A dirty staged set. -/
def dirtied (s : State) : State := { s with gens := { s.gens with dirty := true } }

/-- RUN with a dirty staged set and two generations held, 1 by piece 1999 and 0 by piece 1998. -/
def twoHeld : State :=
  let side : SideRecord := { SideRecord.notSeen with state := .closed, n := 300 }
  let e : Nat → Nat → Entry := fun piece g => { Entry.fresh piece g with sides := { face := side, back := SideRecord.notSeen } }
  let s := withEntries [e 1998 0, e 1999 1]
  { s with gens :=
      { newest := { number := 1, settings := Settings.default }, older := [{ number := 0, settings := Settings.default }]
        staged := Settings.default, dirty := true } }

theorem lead_accepted (s : State) (hs : s.setup = setupUnit) (hp : s.path = lanesUp) (hm : s.mode ≠ .standby) :
    s.ImageWriteAccepted .face faceRing leadWrite := header_accepted s _ (.inl rfl) hs hp hm

/-- What a state gives the LEAD header of piece 2001 beside its mode and staged set. -/
abbrev opensLead (s : State) : Prop :=
  s.ImageWriteAccepted .face faceRing leadWrite ∧ s.parsers.get .face = .waitHeader ∧ (∀ e ∈ s.entries, e.piece ≠ 2001) ∧
    ∀ e ∈ s.entries, (e.sides.get .face).state ≠ .opened

theorem witness_LeadHeaderOpensOrCountsAPiece :
    (ringOffset faceRing leadWrite = 0 ∧ leadWrite.beats = 2 ∧
      writtenBytes leadWrite (reqLo leadWrite) 16 = some leadBytes) ∧
    Header.ofBytes leadBytes =
      { piece := 2001, index := 0, side := .face, lead := true, trail := false, double := false, samples := 64, top := 0
        bottom := 63 } ∧
    (opensLead (drainWith2000 (some 2001)) ∧ (drainWith2000 (some 2001)).mode = .drain ∧
      (drainWith2000 (some 2001)).lastUninspected = some 2001) ∧
    (opensLead (drainWith2000 none) ∧ (drainWith2000 none).mode = .drain ∧
      (drainWith2000 none).lastUninspected ≠ some 2001) ∧
    (opensLead elevenClosed ∧ elevenClosed.mode = .run ∧ elevenClosed.entries.length < 12 ∧
      (∀ e ∈ elevenClosed.entries, (e.sides.get .face).state ≠ .notSeen) ∧ elevenClosed.gens.dirty = false) ∧
    (opensLead (dirtied running) ∧ (dirtied running).mode = .run ∧ (dirtied running).entries = [] ∧
      (dirtied running).gens.dirty = true) ∧
    (opensLead (dirtied elevenClosed) ∧ (dirtied elevenClosed).mode = .run ∧ (dirtied elevenClosed).entries.length < 12 ∧
      (∀ e ∈ (dirtied elevenClosed).entries, (e.sides.get .face).state ≠ .notSeen) ∧
      (dirtied elevenClosed).gens.dirty = true ∧ (dirtied elevenClosed).heldNumbers.length = 1) ∧
    (opensLead twoHeld ∧ twoHeld.mode = .run ∧ twoHeld.entries.length < 12 ∧
      (∀ e ∈ twoHeld.entries, (e.sides.get .face).state ≠ .notSeen) ∧ twoHeld.gens.dirty = true ∧
      twoHeld.heldNumbers.length = 2) :=
  ⟨by decide, by decide, ⟨⟨lead_accepted _ rfl rfl (by decide), by decide⟩, by decide⟩,
    ⟨⟨lead_accepted _ rfl rfl (by decide), by decide⟩, by decide⟩,
    ⟨⟨lead_accepted _ rfl rfl (by decide), by decide⟩, by decide⟩,
    ⟨⟨lead_accepted _ rfl rfl (by decide), by decide⟩, by decide⟩,
    ⟨⟨lead_accepted _ rfl rfl (by decide), by decide⟩, by decide⟩,
    ⟨lead_accepted _ rfl rfl (by decide), by decide⟩, by decide⟩

/-- The header of a later line of piece 2001 on FACE. -/
def laterHeader (index samples : Nat) : Header :=
  { piece := 2001, index := index, side := .face, lead := false, trail := false, double := false, samples := samples, top := 0
    bottom := 63 }

/-- Piece 2001's FACE side record with an expected next index. -/
def expecting (n : Nat) : SideRecord := { SideRecord.notSeen with state := .opened, expected := n }

/-- RUN with piece 2001 alone, its FACE side expecting a line, its inspection running or finished. -/
def expects (n : Nat) (runs : Bool) : State :=
  withEntries [{ e2001 with sides := { face := expecting n, back := SideRecord.notSeen }, running := runs }]

theorem witness_HeadersThatStartNoLine :
    ((laterHeader 1 63).Bad .face ∧ (laterHeader 1 513).Bad .face ∧ (laterHeader 1 64).Bad .back ∧
      ({ laterHeader 1 64 with bottom := 64 } : Header).Bad .face ∧
      ({ laterHeader 1 64 with lead := true } : Header).Bad .face) ∧
    (∀ e, running.entry? 2001 = some e → (e.sides.get .face).state ≠ .opened) ∧
    (∀ q ∈ [(800, true), (799, true), (800, false)], ∃ e, (expects q.1 q.2).entry? 2001 = some e ∧
      (e.sides.get .face).state = .opened ∧ (e.sides.get .face).expected = q.1 ∧ e.running = q.2 ∧
      ((expects q.1 q.2).settingsOf e.generation).geometry.lineLimit = 800) ∧
    (¬ (laterHeader 1 64).Bad .face ∧ (laterHeader 1 64).lead = false ∧
      ¬ ({ laterHeader 0 64 with lead := true } : Header).Bad .face) ∧
    ((drainWith2000 (some 2001)).mode = .drain ∧ (drainWith2000 (some 2001)).lastUninspected = some 2001 ∧
      (drainWith2000 (some 2001)).entry? 2001 = none) ∧
    ((expects 5 true).entry? 2001 ≠ none ∧ 5 < (laterHeader 799 64).index ∧ 800 ≤ (laterHeader 800 64).index ∧
      (laterHeader 4 64).index < 5) := by
  refine ⟨⟨.inr (.inl (by decide)), .inr (.inr (.inl (by decide))), .inl (by decide), ?_, ?_⟩, ?_, ?_, ⟨?_, rfl, ?_⟩, by decide,
    by decide⟩
  · exact .inr (.inr (.inr (.inr (.inl (by decide)))))
  · exact .inr (.inr (.inr (.inr (.inr ⟨rfl, by decide⟩))))
  · intro e h; cases h
  · intro q h
    simp only [List.mem_cons, List.not_mem_nil, or_false] at h
    obtain rfl | rfl | rfl := h <;> exact ⟨_, rfl, rfl, rfl, rfl, rfl⟩
  · unfold Header.Bad; decide
  · unfold Header.Bad; decide

theorem witness_HeadersThatStartALine :
    (¬ (laterHeader 799 64).Bad .face ∧ (expects 799 true).entries = [] ++ { opened2001 with
        sides := { face := expecting 799, back := SideRecord.notSeen } } :: [] ∧ (expects 799 true).pieces.Nodup ∧
      (laterHeader 799 64).index < ((expects 799 true).settingsOf 0).geometry.lineLimit) ∧
    (¬ ({ laterHeader 0 64 with side := .back, lead := true } : Header).Bad .back ∧
      (∀ p ∈ (expects 1 false).entries, (p.sides.get .back).state ≠ .opened)) ∧
    ((expects 1 true).takeHeader .face 17 (laterHeader 1 64)).parsers.get .face =
      .inLine ((laterHeader 1 64).line 17 true) := by
  refine ⟨⟨?_, by decide⟩, ⟨?_, by decide⟩, by decide +kernel⟩ <;> unfold Header.Bad <;> decide

/-- RUN with piece 2000's FACE side OPEN, or NOT_SEEN, before it and room in the table. -/
def with2000 (st : SideState) : State :=
  withEntries [{ Entry.fresh 2000 0 with
    sides := { face := { SideRecord.notSeen with state := st }, back := SideRecord.notSeen } }]

/-- RUN with 12 entries. -/
def full : State :=
  withEntries (Entry.fresh 1989 0 :: elevenClosed.entries)

theorem witness_LeadHeadersTruncateForceOutAndMark :
    let h : Header := { laterHeader 0 64 with lead := true }
    ¬ h.Bad .face ∧
    ((with2000 .opened).pieces.Nodup ∧ (with2000 .opened).entry? 2001 = none ∧
      ∃ o ∈ (with2000 .opened).entries, o.piece ≠ 2001 ∧ (o.sides.get .face).state = .opened ∧
        ∀ p ∈ (with2000 .opened).entries, (p.sides.get .face).state = .opened → p.piece = o.piece) ∧
    (full.pieces.Nodup ∧ full.mode = .run ∧ full.entry? 2001 = none ∧ full.entries = Entry.fresh 1989 0 :: elevenClosed.entries ∧
      full.entries.length = 12 ∧ full.tally.other = .free ∧ full.NoTrayQueued ∧
      ∀ p ∈ full.entries, (p.sides.get .face).state ≠ .opened) ∧
    ((with2000 .notSeen).pieces.Nodup ∧ (with2000 .notSeen).mode = .run ∧ (with2000 .notSeen).entries.length < 12 ∧
      (with2000 .notSeen).gens.dirty = false ∧ (with2000 .notSeen).gens.older = [] ∧
      (∀ p ∈ (with2000 .notSeen).entries, (p.sides.get .face).state = .notSeen ∧ p.piece ≠ 2001)) ∧
    (∃ e, ((withEntries [Entry.fresh 2000 0, e2001]).entry? 2001 = some e) ∧ (e.sides.get .face).state = .notSeen) := by
  refine ⟨by unfold Header.Bad; decide, by decide, ⟨by decide, by decide, by decide, rfl, by decide, by decide, ?_, by decide⟩,
    by decide, _, rfl, rfl⟩
  intro e h; cases h

theorem sample_accepted (n k : Nat) (inspecting : Bool) (o : Nat) (h : o < 4096 - 7) (a : o % 8 = 0) :
    (inLine n k inspecting).ImageWriteAccepted .face faceRing (faceWrite o (le 8 0x2BC)) := by
  refine faceWrite_accepted _ _ rfl rfl (by intro h; cases h) rfl rfl rfl ?_ ?_
  · simp [reqInside, reqLo, reqHi, faceWrite, wr, faceRing, le, bytesOfNum, BitVec.toNat_ofNat]
    omega
  · simp [reqCrosses, reqLo, reqHi, faceWrite, wr, le, bytesOfNum, BitVec.toNat_ofNat]
    omega

theorem witness_SampleBeatsAdvanceEndOrFaultTheLine :
    (∀ q ∈ [(64, 0), (64, 62), (65, 64), (65, 62)], ∀ inspecting,
      (inLine q.1 q.2 inspecting).ImageWriteAccepted .face faceRing (faceWrite (16 + 4 * q.2) (le 8 0x2BC)) ∧
      (inLine q.1 q.2 inspecting).parsers.get .face = .inLine (lineAt q.1 q.2 inspecting) ∧
      (lineAt q.1 q.2 inspecting).inspecting = inspecting ∧
      ((inLine q.1 q.2 inspecting).entry? 2001).isSome = true) ∧
    (∀ o ∈ [8, 16, 264, 272, 280], ringSlot faceRing (faceWrite o (le 8 0x2BC)) = 17 ∧
      (faceWrite o (le 8 0x2BC)).beats = 1 ∧ ringOffset faceRing (faceWrite o (le 8 0x2BC)) = o ∧
      writtenBytes (faceWrite o (le 8 0x2BC)) (reqLo (faceWrite o (le 8 0x2BC))) 8 = some (le 8 0x2BC) ∧
      writtenBytes (faceWrite o (le 8 0x2BC)) (reqLo (faceWrite o (le 8 0x2BC))) 4 = some (le 4 0x2BC)) ∧
    ((lineAt 64 0 true).next + 2 < (lineAt 64 0 true).samples ∧ (lineAt 64 62 true).next + 2 = (lineAt 64 62 true).samples ∧
      (lineAt 65 64 true).next + 1 = (lineAt 65 64 true).samples ∧ (lineAt 65 62 true).next + 2 < (lineAt 65 62 true).samples) ∧
    (16 + 4 * (lineAt 64 0 true).next ≠ 264 ∧ 264 < 16 + 4 * (lineAt 64 0 true).samples ∧
      16 + 4 * (lineAt 64 0 true).samples ≤ 272) ∧
    (writtenBytes (wrNone (0x10000000 + 4096 * 17 + 264) 1 0) (reqLo (wrNone (0x10000000 + 4096 * 17 + 264) 1 0)) 8 = none ∧
      (inLine 64 62 true).ImageWriteAccepted .face faceRing (wrNone (0x10000000 + 4096 * 17 + 264) 1 0) ∧
      ringOffset faceRing (wrNone (0x10000000 + 4096 * 17 + 264) 1 0) = 16 + 4 * (lineAt 64 62 true).next) :=
  ⟨(by
      intro q h i
      simp only [List.mem_cons, List.not_mem_nil, or_false] at h
      obtain rfl | rfl | rfl | rfl := h <;> exact ⟨sample_accepted _ _ _ _ (by decide) (by decide), rfl, rfl, rfl⟩),
    by decide, by decide, by decide, by decide,
    faceWrite_accepted _ _ rfl rfl (by decide) (by decide) (by decide) (by decide) (by decide) (by decide), by decide⟩

theorem witness_ImageWritesAreTakenBeatByBeat :
    (running.ImageWriteAccepted .face faceRing (faceWrite 0 (leadBytes ++ le 8 0x2BC)) ∧
      ringOffset faceRing (faceWrite 0 (leadBytes ++ le 8 0x2BC)) = 0 ∧ 2 < (faceWrite 0 (leadBytes ++ le 8 0x2BC)).beats) ∧
    ((inLine 64 62 true).ImageWriteAccepted .face faceRing (faceWrite 264 (le 16 0x2BC)) ∧
      ringOffset faceRing (faceWrite 264 (le 16 0x2BC)) = 264 ∧ 1 < (faceWrite 264 (le 16 0x2BC)).beats) ∧
    (∀ o ∈ [4, 20, 276], (inLine 64 0 true).ImageWriteAccepted .face faceRing (faceWrite o (le 8 0)) ∧
      running.ImageWriteAccepted .face faceRing (faceWrite o (le 8 0)) ∧ ringOffset faceRing (faceWrite o (le 8 0)) = o ∧
      ringSlot faceRing (faceWrite o (le 8 0)) = (lineAt 64 0 true).slot) ∧
    ((∀ ln, running.parsers.get .face ≠ .inLine ln) ∧ (inLine 64 0 true).parsers.get .face = .inLine (lineAt 64 0 true) ∧
      20 / 8 * 8 < 16 + 4 * (lineAt 64 0 true).samples ∧ 16 + 4 * (lineAt 64 0 true).samples ≤ 276 / 8 * 8 ∧
      inOtherSlot.ImageWriteAccepted .face faceRing (faceWrite 20 (le 8 0))) :=
  ⟨⟨faceWrite_accepted _ _ rfl rfl (by decide) (by decide) (by decide) (by decide) (by decide) (by decide), by decide⟩,
    ⟨faceWrite_accepted _ _ rfl rfl (by decide) (by decide) (by decide) (by decide) (by decide) (by decide), by decide⟩,
    (by
      intro o h
      simp only [List.mem_cons, List.not_mem_nil, or_false] at h
      obtain rfl | rfl | rfl := h <;>
        exact ⟨faceWrite_accepted _ _ rfl rfl (by decide) (by decide) (by decide) (by decide) (by decide) (by decide),
          faceWrite_accepted _ _ rfl rfl (by decide) (by decide) (by decide) (by decide) (by decide) (by decide), by decide⟩),
    (by intro ln h; cases h), rfl, by decide, by decide,
    faceWrite_accepted _ _ rfl rfl (by decide) (by decide) (by decide) (by decide) (by decide) (by decide)⟩

/-- Zone work of FACE in a state, owned by piece 2001, the line's tallies in place. -/
def zoneAt (st : ZoneState) : State :=
  { withEntries [opened2001] with
    zones := { face := { ZoneWork.idle with state := st, owner := some 2001, line := some (2001, 95) }, back := ZoneWork.idle } }

theorem witness_LineHandoversFillRingAndLeadZones :
    (∀ st, ((zoneAt st).entry? 2001).isSome = true ∧ ((zoneAt st).zones.get .face).state = st ∧
      ((zoneAt st).settingsOf 0).geometry.zw = 96) ∧
    ((94 + 1 < 96) ∧ (96 ≤ 95 + 1) ∧ ((zoneAt .body).zones.get .face).line = some (2001, 95)) ∧
    (ZoneRecord.empty.done = false ∧ (presentRec 0).done = true) :=
  ⟨by intro st; exact ⟨rfl, rfl, rfl⟩, by decide, by decide⟩

theorem witness_SideClosesBuildTrailingZones :
    (∃ e, (withEntries [e2001]).entry? 2001 = some e ∧ (e.sides.get .face).state ≠ .opened) ∧
    (∃ e, (expects 1 false).entry? 2001 = some e ∧ (e.sides.get .face).state = .opened ∧ e.running = false) ∧
    (∀ st, st ≠ .idle → ∃ e, (zoneAt st).entry? 2001 = some e ∧ (e.sides.get .face).state = .opened ∧ e.running = true ∧
      ((zoneAt st).zones.get .face).state ≠ .idle) :=
  ⟨⟨_, rfl, by decide⟩, ⟨_, rfl, rfl, rfl⟩, by intro st h; exact ⟨_, rfl, rfl, rfl, h⟩⟩

/-- A dispatch answer of piece 2001. -/
def answerOf (kind : OutcomeKind) (late : Bool) : DispatchAnswer :=
  { piece := 2001, kind := kind, turn := .pass, stacker := 0, early := false, clamped := false, late := late }

/-- Piece 2001 with three faulted lines on FACE and `n` on BACK. -/
def withFaults (n : Nat) (runs : Bool) : State :=
  withEntries [{ e2001 with
    running := runs
    sides := { face := { SideRecord.notSeen with faulted := 3 }, back := { SideRecord.notSeen with faulted := n } } }]

theorem witness_PieceFaultDecidesAndFinishes :
    (inLine 64 0 true).pieces.Nodup ∧
      (∃ e, (inLine 64 0 true).entry? 2001 = some e ∧ e.dispatch = none ∧ e.running = true) ∧
      ((inLine 64 0 true).zones.get .face).owner = some 2001 ∧ ((inLine 64 0 true).zones.get .back).owner ≠ some 2001 ∧
      (∃ e, (withEntries [{ e2001 with dispatch := some (answerOf .stampOk false), remarks := 1 }]).entry? 2001 = some e ∧
        e.dispatch ≠ none ∧ e.hasRemark .early = true) ∧
      (∃ e, (withEntries [{ e2001 with running := false }]).entry? 2001 = some e ∧ e.running = false) ∧
      (inLine 64 0 true).entry? 2002 = none ∧
      (∃ e, (withFaults (1) true).entry? 2001 = some e ∧ e.running = true ∧
        ((withFaults (1) true).settingsOf e.generation).geometry.lineFaultLimit <
          e.sides.face.faulted + e.sides.back.faulted) ∧
      (∃ e, (withFaults (0) true).entry? 2001 = some e ∧ e.running = true ∧
        e.sides.face.faulted + e.sides.back.faulted ≤
          ((withFaults (0) true).settingsOf e.generation).geometry.lineFaultLimit) :=
  ⟨by decide, ⟨_, rfl, rfl, rfl⟩, rfl, by decide, ⟨_, rfl, by decide, by decide⟩, ⟨_, rfl, rfl⟩, by decide,
    ⟨_, rfl, rfl, by decide⟩, ⟨_, rfl, rfl, by decide⟩⟩

/-! ## Witnesses: windows -/

/-- Piece 2001 alone in the table, changed by `f`. -/
def only (f : Entry → Entry) : State := withEntries [f e2001]

theorem room_of_path (s : State) (r : Request) (hp : s.path = lanesUp) (l : r.classTag = 0) : s.AcceptsAtOnce r := by
  refine ⟨by rw [hp]; rfl, ?_⟩
  have h : s.laneOf r = .blk := by simp [State.laneOf, l]
  rw [h, State.hasRoom, hp]
  rfl

/-- A read of slot `j` of the dispatch window meets the conditions, whatever `j` below 64 and the entries. -/
theorem dispatch_slot (s : State) (src j : Nat) (hs : s.setup = setupUnit) (hp : s.path = lanesUp) (h : src < 15)
    (hj : j < 64) : s.SlotRequest .read mapRecord.map.dispatch 8 j (rd (0x10080000 + 8 * j) 1 src 0) where
  placed := placement_of_setup s hs
  form := rfl
  slot := hj
  addr := by simp [reqLo, rd, mapRecord, MemoryMapRecord.map, BitVec.toNat_ofNat]; omega
  length := rfl
  source := by
    intro e
    have := congrArg BitVec.toNat e
    simp [rd, BitVec.toNat_ofNat] at this
    omega
  room := room_of_path s _ hp rfl

/-- The same of a read of slot `j` of the print window. -/
theorem print_slot (s : State) (src j : Nat) (hs : s.setup = setupUnit) (hp : s.path = lanesUp) (h : src < 15)
    (hj : j < 64) : s.SlotRequest .read mapRecord.map.print 16 j (rd (0x10080400 + 16 * j) 2 src 0) where
  placed := placement_of_setup s hs
  form := rfl
  slot := hj
  addr := by simp [reqLo, rd, mapRecord, MemoryMapRecord.map, BitVec.toNat_ofNat]; omega
  length := rfl
  source := by
    intro e
    have := congrArg BitVec.toNat e
    simp [rd, BitVec.toNat_ofNat] at this
    omega
  room := room_of_path s _ hp rfl

theorem matched_alone (f : Entry → Entry) (h : (f e2001).piece = 2001) : (only f).MatchedBy 17 [] (f e2001) [] where
  list := rfl
  slot := by rw [h]
  oldest := by intro q hq; cases hq
  distinct := by simp [State.pieces, only, withEntries]

/-- A decision of piece 2001. -/
def decisionOf (outcome : Outcome) (plan : Option Plan) : Decision :=
  { kind := .full, outcome := outcome, turn := .pass
    winner := some { corner := 0, cls := .ph, score := 620, xc := 30, yc := 27, e := 329 }, position := some (30, 27)
    plan := plan }

theorem witness_DispatchReadIsAnsweredOnce :
    (running.setup.map = some mapRecord.map ∧ running.setup.sources = some sourceTable ∧
      (running.SlotRequest .read mapRecord.map.dispatch 8 0 (rd (0x10080000 + 8 * 0) 1 5 0) ∧
        sourceTable.gate ≠ (rd (0x10080000 + 8 * 0) 1 5 0).source.toNat) ∧
      running.SlotRequest .read mapRecord.map.dispatch 8 63 (rd (0x10080000 + 8 * 63) 1 4 0) ∧
      (∀ e ∈ running.entries, e.piece % 64 ≠ 63)) ∧
    ((only id).SlotRequest .read mapRecord.map.dispatch 8 17 (rd (0x10080000 + 8 * 17) 1 4 0) ∧
      sourceTable.gate = (rd (0x10080000 + 8 * 17) 1 4 0).source.toNat) ∧
    ((only fun e => { e with dispatch := some (answerOf .meter false) }).MatchedBy 17 []
        { e2001 with dispatch := some (answerOf .meter false) } []) ∧
    ((only fun e => { e with decision := some (decisionOf .stamp (some (.print 0))) }).MatchedBy 17 []
        { e2001 with decision := some (decisionOf .stamp (some (.print 0))) } []) ∧
    ((only id).MatchedBy 17 [] e2001 [] ∧ e2001.dispatch = none ∧ e2001.decision = none) :=
  ⟨⟨rfl, rfl, ⟨dispatch_slot _ 5 0 rfl rfl (by decide) (by decide), by decide⟩,
      dispatch_slot _ 4 63 rfl rfl (by decide) (by decide), (by intro e h; cases h)⟩,
    ⟨dispatch_slot _ 4 17 rfl rfl (by decide) (by decide), by decide⟩, matched_alone _ rfl, matched_alone _ rfl,
    matched_alone id rfl, rfl, rfl⟩

theorem witness_PrintReadIsAnsweredOnce :
    ((running.SlotRequest .read mapRecord.map.print 16 0 (rd (0x10080400 + 16 * 0) 2 4 0) ∧
        sourceTable.printer ≠ (rd (0x10080400 + 16 * 0) 2 4 0).source.toNat) ∧
      running.SlotRequest .read mapRecord.map.print 16 63 (rd (0x10080400 + 16 * 63) 2 5 0) ∧
      (∀ e ∈ running.entries, e.piece % 64 ≠ 63)) ∧
    ((only id).SlotRequest .read mapRecord.map.print 16 17 (rd (0x10080400 + 16 * 17) 2 5 0) ∧
      sourceTable.printer = (rd (0x10080400 + 16 * 17) 2 5 0).source.toNat) ∧
    ((only fun e => { e with print := some { piece := 2001, action := .skip .late } }).MatchedBy 17 []
        { e2001 with print := some { piece := 2001, action := .skip .late } } []) ∧
    ((only id).MatchedBy 17 [] e2001 [] ∧ e2001.print = none) ∧
    (e2001.dispatch = none ∧ (answerOf .cullLate true).late = true ∧
      ((answerOf .cullFault false).late = false ∧
        (answerOf .cullFault false).kind ∈ [OutcomeKind.cullNone, .cullAmbig, .cullCorner, .cullFault]) ∧
      ((answerOf .meter false).kind = .meter ∧ (answerOf .stampHeld false).kind = .stampHeld) ∧
      ((answerOf .stampOk false).kind = .stampOk ∧ ({ Cancel.reset with held := true } : Cancel).held = true) ∧
      (({ Cancel.reset with suspended := true } : Cancel).held = false ∧
        ({ Cancel.reset with suspended := true } : Cancel).suspended = true) ∧
      (Cancel.reset.held = false ∧ Cancel.reset.suspended = false ∧
        (decisionOf .stamp (some .skipBand)).plan = some .skipBand ∧
        (decisionOf .stamp (some (.print 3))).plan = some (.print 3) ∧
        (decisionOf .stamp (some (.print 3))).position = some (30, 27))) :=
  ⟨⟨⟨print_slot _ 4 0 rfl rfl (by decide) (by decide), by decide⟩, print_slot _ 5 63 rfl rfl (by decide) (by decide),
      (by intro e h; cases h)⟩,
    ⟨print_slot _ 5 17 rfl rfl (by decide) (by decide), by decide⟩, matched_alone _ rfl, ⟨matched_alone id rfl, rfl⟩, by decide⟩

theorem witness_LiveReadTakesASnapshot :
    running.setup.map = some mapRecord.map ∧ running.PlacementLaw ∧
      (∀ r ∈ [rd 0x10081000 32 0 0, rd 0x100810F8 1 14 0], r.wellFormedAs .read = true ∧ r.source ≠ 15 ∧
        running.AcceptsAtOnce r ∧ reqInside r mapRecord.map.live 256 = true) ∧
      ((rd 0x100810F8 2 14 0).wellFormedAs .read = true ∧ (rd 0x100810F8 2 14 0).source ≠ 15 ∧
        reqCrosses (rd 0x100810F8 2 14 0) = false ∧ running.AcceptsAtOnce (rd 0x100810F8 2 14 0) ∧
        reqTouches (rd 0x100810F8 2 14 0) mapRecord.map.live 256 = true ∧
        reqTouches (rd 0x100810F8 2 14 0) mapRecord.map.dispatch 512 = false ∧
        reqTouches (rd 0x100810F8 2 14 0) mapRecord.map.print 1024 = false) :=
  ⟨rfl, placement_of_setup _ rfl, (by
    intro r h
    simp only [List.mem_cons, List.not_mem_nil, or_false] at h
    obtain rfl | rfl := h
    · exact ⟨by decide, by decide, room_of_path _ _ rfl rfl, by decide⟩
    · exact ⟨by decide, by decide, room_of_path _ _ rfl rfl, by decide⟩),
    by decide, by decide, by decide, room_of_path _ _ rfl rfl, by decide⟩

/-- An exit word of the gate in slot 17: piece, stacker, jam mark. -/
def exitWrite (src piece stacker jam : Nat) : Request :=
  wr (0x10080C00 + 8 * 17) src 0 (le 2 piece ++ le 1 stacker ++ le 1 jam ++ le 4 0)

theorem exit_slot (s : State) (r : Request) (hs : s.setup = setupUnit) (hp : s.path = lanesUp)
    (f : r.wellFormedAs .write = true) (a : reqLo r = mapRecord.map.exit + 8 * 17) (b : r.beats = 1)
    (src : r.source ≠ 15) (l : r.classTag = 0) : s.SlotRequest .write mapRecord.map.exit 8 17 r :=
  ⟨placement_of_setup s hs, f, by decide, a, by rw [b], src, room_of_path s r hp l⟩

theorem status_slot (s : State) (r : Request) (hs : s.setup = setupUnit) (hp : s.path = lanesUp)
    (f : r.wellFormedAs .write = true) (a : reqLo r = mapRecord.map.status + 8 * 17) (b : r.beats = 1)
    (src : r.source ≠ 15) (l : r.classTag = 0) : s.SlotRequest .write mapRecord.map.status 8 17 r :=
  ⟨placement_of_setup s hs, f, by decide, a, by rw [b], src, room_of_path s r hp l⟩

/-- Three entries, piece 2001 the middle one; the older one's age is 4 of the limit 6, the younger one's 5. -/
def threeAged : State :=
  withEntries [{ Entry.fresh 2000 0 with age := 4 }, e2001, { Entry.fresh 2002 0 with age := 5 }]

/-- RUN with piece 2001 alone and a tray limit of one piece. -/
def limited : State :=
  let s := withEntries [e2001]
  { s with trays := { s.trays with inForce := { s.trays.inForce with pieceLimit := 1 } } }

theorem witness_ExitWordRetiresItsEntry :
    (ready.mode = .standby ∧ ready.SlotRequest .write mapRecord.map.exit 8 17 (exitWrite 4 2001 0 0)) ∧
    (running.mode ≠ .standby ∧ running.setup.map = some mapRecord.map ∧ running.setup.sources = some sourceTable) ∧
    (running.SlotRequest .write mapRecord.map.exit 8 17 (exitWrite 5 2001 0 0) ∧
      sourceTable.gate ≠ (exitWrite 5 2001 0 0).source.toNat) ∧
    (running.SlotRequest .write mapRecord.map.exit 8 17 (wrNone (0x10080C00 + 8 * 17) 4 0) ∧
      writtenBytes (wrNone (0x10080C00 + 8 * 17) 4 0) (reqLo (wrNone (0x10080C00 + 8 * 17) 4 0)) 8 = none) ∧
    (writtenBytes (exitWrite 4 2002 0 0) (reqLo (exitWrite 4 2002 0 0)) 8 = some (le 2 2002 ++ le 6 0) ∧
      half (le 2 2002 ++ le 6 0) 0 % 64 ≠ 17) ∧
    (writtenBytes (exitWrite 4 2001 0 0) (reqLo (exitWrite 4 2001 0 0)) 8 = some (le 2 2001 ++ le 6 0) ∧
      ∀ e ∈ running.entries, e.piece ≠ half (le 2 2001 ++ le 6 0) 0) ∧
    (threeAged.SlotRequest .write mapRecord.map.exit 8 17 (exitWrite 4 2001 15 1) ∧ threeAged.mode = .run ∧
      sourceTable.gate = (exitWrite 4 2001 15 1).source.toNat ∧
      writtenBytes (exitWrite 4 2001 15 1) (reqLo (exitWrite 4 2001 15 1)) 8 =
        some (le 2 2001 ++ le 1 15 ++ le 1 1 ++ le 4 0) ∧
      half (le 2 2001 ++ le 1 15 ++ le 1 1 ++ le 4 0) 0 % 64 = 17 ∧
      e2001.piece = half (le 2 2001 ++ le 1 15 ++ le 1 1 ++ le 4 0) 0 ∧
      threeAged.entries =
        [{ Entry.fresh 2000 0 with age := 4 }] ++ e2001 :: [{ Entry.fresh 2002 0 with age := 5 }] ∧
      threeAged.pieces.Nodup ∧ threeAged.tally.other = .free ∧ threeAged.NoTrayQueued ∧
      (∀ t : State, t.trays = threeAged.trays →
        (∀ q ∈ [{ Entry.fresh 2000 0 with age := 4 }], q.age + 1 < t.trays.inForce.ageLimit) ∧
          (∀ q ∈ [{ Entry.fresh 2002 0 with age := 5 }], q.age < t.trays.inForce.ageLimit))) ∧
    (({ threeAged with mode := .drain } : State).mode = .drain ∧
      [{ Entry.fresh 2000 0 with age := 4 }] ++ [{ Entry.fresh 2002 0 with age := 5 }] ≠ []) ∧
    (limited.trays.inForce.pieceLimit = 1 ∧ limited.tally.other = .free ∧ limited.NoTrayQueued ∧
      1 ≤ ((((limited.queued (exitWrite 4 2001 15 1) []).departed e2001 .cullFault []).tally.counts).toList.take 11).sum ∧
      ((limited.queued (exitWrite 4 2001 15 1) []).departed e2001 .cullFault []).limitAsked.trays.inForce.ageLimit = 6) :=
  ⟨⟨rfl, exit_slot _ _ rfl rfl (by decide) (by decide) rfl (by decide) rfl⟩, ⟨by decide, rfl, rfl⟩,
    ⟨exit_slot _ _ rfl rfl (by decide) (by decide) rfl (by decide) rfl, by decide⟩,
    ⟨exit_slot _ _ rfl rfl (by decide) (by decide) rfl (by decide) rfl, by decide⟩,
    by decide, by decide,
    ⟨exit_slot _ _ rfl rfl (by decide) (by decide) rfl (by decide) rfl, by decide, by decide, by decide, by decide, by decide,
      by decide, by decide, by decide, (by intro e h; cases h), (by intro t h; rw [h]; decide)⟩,
    by decide, rfl, rfl, (by intro e h; cases h), by decide +kernel, by decide +kernel⟩

/-- Three entries, the middle one due to exit; the older one's age becomes 6 of the limit 6, the younger one's is 6. -/
def threeOld : State :=
  withEntries [{ Entry.fresh 2000 0 with age := 5 }, e2001, { Entry.fresh 2002 0 with age := 6 }]

theorem witness_AgedEntriesLeaveAndDrainsEnd :
    (threeOld.setup.map = some mapRecord.map ∧ threeOld.setup.sources = some sourceTable ∧
      threeOld.SlotRequest .write mapRecord.map.exit 8 17 (exitWrite 4 2001 0 0) ∧
      sourceTable.gate = (exitWrite 4 2001 0 0).source.toNat ∧
      writtenBytes (exitWrite 4 2001 0 0) (reqLo (exitWrite 4 2001 0 0)) 8 = some (le 2 2001 ++ le 6 0) ∧
      half (le 2 2001 ++ le 6 0) 0 % 64 = 17 ∧ e2001.piece = half (le 2 2001 ++ le 6 0) 0) ∧
    (threeOld.entries = [{ Entry.fresh 2000 0 with age := 5 }] ++ e2001 :: [{ Entry.fresh 2002 0 with age := 6 }] ∧
      threeOld.pieces.Nodup ∧ threeOld.tally.other = .free ∧ threeOld.NoTrayQueued ∧ threeOld.mode ≠ .standby ∧
      threeOld.trays.inForce.pieceLimit = 0 ∧ threeOld.trays.inForce.ageLimit = 6) ∧
    (({ withEntries [e2001] with mode := .drain } : State).SlotRequest .write mapRecord.map.exit 8 17 (exitWrite 4 2001 0 0) ∧
      ({ withEntries [e2001] with mode := .drain } : State).mode = .drain ∧
      ({ withEntries [e2001] with mode := .drain } : State).entries = [] ++ e2001 :: []) :=
  ⟨⟨rfl, rfl, exit_slot _ _ rfl rfl (by decide) (by decide) rfl (by decide) rfl, by decide⟩,
    ⟨rfl, by decide, rfl, (by intro e h; cases h), by decide⟩,
    exit_slot _ _ rfl rfl (by decide) (by decide) rfl (by decide) rfl, rfl, rfl⟩

/-- Piece 2001 dispatched STAMP_OK and printed OK. -/
def stamped : Entry :=
  { e2001 with
    decision := some (decisionOf .stamp (some (.print 0))), dispatch := some (answerOf .stampOk false)
    print := some { piece := 2001, action := .print 30 27 0 }, printStatus := some .ok }

theorem witness_DispositionFollowsItsRows :
    ({ e2001 with disposition := some .cullLate } : Entry).disposition = some .cullLate ∧
      (e2001.disposition = none ∧ e2001.dispatch = none) ∧
      [OutcomeKind.cullNone, .cullAmbig, .cullCorner, .cullFault, .meter, .stampHeld, .stampOk].map
          (fun k => (answerOf k false).kind) =
        [OutcomeKind.cullNone, .cullAmbig, .cullCorner, .cullFault, .meter, .stampHeld, .stampOk] ∧
      (stamped.print = some { piece := 2001, action := .print 30 27 0 } ∧
        (stamped.printStatus = none ∨ stamped.printStatus = some .ok) ∧
        (stamped.decision.bind Decision.winner).map Winner.cls = some .ph ∧ Cls.ph ≠ .fl) ∧
      (some PrintStatus.inkOut ∈ [some PrintStatus.misprint, some .headFault, some .inkOut]) := by
  decide

/-- A print status word of the printer in slot 17. -/
def statusWrite (src piece result : Nat) : Request :=
  wr (0x10080800 + 8 * 17) src 0 (le 2 piece ++ le 1 result ++ le 5 0)

/-- Piece 2001 with a PRINT answer and a status. -/
def printed (st : Option PrintStatus) : Entry :=
  { e2001 with print := some { piece := 2001, action := .print 30 27 0 }, printStatus := st }

theorem witness_PrintStatusWordIsRecordedOnce :
    (ready.mode = .standby ∧ ready.SlotRequest .write mapRecord.map.status 8 17 (statusWrite 5 2001 1)) ∧
    (running.SlotRequest .write mapRecord.map.status 8 17 (statusWrite 4 2001 1) ∧
      sourceTable.printer ≠ (statusWrite 4 2001 1).source.toNat) ∧
    (running.SlotRequest .write mapRecord.map.status 8 17 (wrNone (0x10080800 + 8 * 17) 5 0) ∧
      writtenBytes (wrNone (0x10080800 + 8 * 17) 5 0) (reqLo (wrNone (0x10080800 + 8 * 17) 5 0)) 8 = none) ∧
    (writtenBytes (statusWrite 5 2001 5) (reqLo (statusWrite 5 2001 5)) 8 = some (le 2 2001 ++ le 1 5 ++ le 5 0) ∧
      4 < (byteAt (le 2 2001 ++ le 1 5 ++ le 5 0) 2).toNat ∧ (byteAt (le 2 2001 ++ le 1 0 ++ le 5 0) 2).toNat = 0 ∧
      half (le 2 2002 ++ le 1 1 ++ le 5 0) 0 % 64 ≠ 17) ∧
    ((only fun _ => printed none).SlotRequest .write mapRecord.map.status 8 17 (statusWrite 5 2001 2) ∧
      (only fun _ => printed none).mode ≠ .standby ∧ sourceTable.printer = (statusWrite 5 2001 2).source.toNat ∧
      [1, 2, 3, 4].map (fun k => (writtenBytes (statusWrite 5 2001 k) (reqLo (statusWrite 5 2001 k)) 8).map fun bs =>
          (half bs 0 % 64, half bs 0, byteAt bs 2)) =
        [some (17, 2001, 1), some (17, 2001, 2), some (17, 2001, 3), some (17, 2001, 4)] ∧
      (only fun _ => printed none).entries = [] ++ printed none :: [] ∧ (only fun _ => printed none).pieces.Nodup ∧
      (printed none).piece = 2001 ∧ (printed none).print = some { piece := 2001, action := .print 30 27 0 } ∧
      (printed none).printStatus = none ∧ (only fun _ => printed none).cancel.misprints = 0) ∧
    (1 ≤ ({ running with cancel := { running.cancel with misprints := 1 } } : State).cancel.misprints) ∧
    (∀ e ∈ (only fun _ => printed (some .ok)).entries, e.piece = 2001 → e.printStatus ≠ none) :=
  ⟨⟨rfl, status_slot _ _ rfl rfl (by decide) (by decide) rfl (by decide) rfl⟩,
    ⟨status_slot _ _ rfl rfl (by decide) (by decide) rfl (by decide) rfl, by decide⟩,
    ⟨status_slot _ _ rfl rfl (by decide) (by decide) rfl (by decide) rfl, by decide⟩, by decide,
    ⟨status_slot _ _ rfl rfl (by decide) (by decide) rfl (by decide) rfl, by decide⟩, by decide, by decide⟩

/-- An exit write over slots 17 and 18 from byte `o` of slot 17: the words of pieces 2001 and 2002. -/
def exitsFrom (o : Nat) : Request :=
  wr (0x10080C00 + 8 * 17 + o) 4 0 (((le 2 2001 ++ le 6 0 ++ le 2 2002 ++ le 6 0).drop o).take (if o = 0 then 16 else 8))

/-- Piece 2001 alone in a mode, with no waiting bank. -/
def onlyIn (m : Mode) : State := { only id with mode := m }

theorem slots_fit (s : State) (r : Request) (hs : s.setup = setupUnit) (hp : s.path = lanesUp) (l : r.classTag = 0)
    (c : reqCrosses r = false) (src : r.source ≠ 15) :
    s.setup.map = some mapRecord.map ∧ s.setup.sources = some sourceTable ∧ s.PlacementLaw ∧ s.AcceptsAtOnce r ∧
      reqCrosses r = false ∧ r.source ≠ 15 :=
  ⟨by rw [hs]; rfl, by rw [hs]; rfl, placement_of_setup s hs, room_of_path s r hp l, c, src⟩

theorem witness_RequestsAreTakenSlotBySlot :
    (∀ m, ∀ r ∈ [rd 0x10080004 1 4 0, rd 0x10080408 2 5 0, exitsFrom 0, exitsFrom 4, wr 0x10080804 5 0 (le 16 2001)],
      (onlyIn m).setup.map = some mapRecord.map ∧ (onlyIn m).setup.sources = some sourceTable ∧ (onlyIn m).PlacementLaw ∧
        (onlyIn m).AcceptsAtOnce r ∧ reqCrosses r = false ∧ r.source ≠ 15) ∧
    ((rd 0x10080004 1 4 0).wellFormedAs .read = true ∧ (rd 0x10080408 2 5 0).wellFormedAs .read = true ∧
      touchedSlots (rd 0x10080004 1 4 0) mapRecord.map.dispatch 8 64 = [0x10080000, 0x10080008] ∧
      touchedSlots (rd 0x10080408 2 5 0) mapRecord.map.print 16 64 = [0x10080400, 0x10080410] ∧
      reqTouches (rd 0x10080004 1 4 0) mapRecord.map.dispatch 512 = true ∧
      reqTouches (rd 0x10080004 1 4 0) mapRecord.map.print 1024 = false ∧
      reqTouches (rd 0x10080004 1 4 0) mapRecord.map.live 256 = false ∧
      reqTouches (rd 0x10080408 2 5 0) mapRecord.map.print 1024 = true ∧
      reqTouches (rd 0x10080408 2 5 0) mapRecord.map.dispatch 512 = false ∧
      reqTouches (rd 0x10080408 2 5 0) mapRecord.map.live 256 = false) ∧
    (∀ r ∈ [exitsFrom 0, exitsFrom 4], r.wellFormedAs .write = true ∧
      reqTouches r (setupUnit.straps.toNat * 65536) 1024 = false ∧ reqTouches r mapRecord.map.exit 512 = true ∧
      reqTouches r mapRecord.map.status 512 = false ∧
      touchedSlots r mapRecord.map.exit 8 64 = [0x10080C88, 0x10080C90]) ∧
    (let r := wr 0x10080804 5 0 (le 16 2001);
      r.wellFormedAs .write = true ∧ reqTouches r (setupUnit.straps.toNat * 65536) 1024 = false ∧
        reqTouches r mapRecord.map.status 512 = true ∧ reqTouches r mapRecord.map.exit 512 = false) ∧
    (∀ k < 2, (onlyIn .drain).mode = .drain ∧
      ((onlyIn .drain).slotsTaken .exitWrite 8 (exitsFrom 4) ([0x10080C88, 0x10080C90].take k)).1.mode = .drain) ∧
    ((onlyIn .drain).slotsTaken .exitWrite 8 (exitsFrom 0) ([0x10080C88, 0x10080C90].take 1)).1.mode = .standby :=
  ⟨(by
      intro m r h
      simp only [List.mem_cons, List.not_mem_nil, or_false] at h
      obtain rfl | rfl | rfl | rfl | rfl := h <;>
        exact slots_fit _ _ rfl rfl (by decide) (by decide) (by decide)),
    by decide, by decide, by decide,
    (by
      intro k h
      obtain rfl | rfl : k = 0 ∨ k = 1 := by omega
      · exact ⟨rfl, rfl⟩
      · exact ⟨rfl, by decide +kernel⟩),
    by decide +kernel⟩

/-- A piece record with every part present. -/
def fullRec : PieceRecord :=
  { pieceRec with
    decision := some (.full, .stamp), dispatch := some (.stampOk, .pass, 0), stacker := some 0
    winner := some { corner := 0, cls := .ph, score := 620, xc := 30, yc := 27, e := 329 }, position := some (30, 27)
    print := some (.print 30 27 0), printStatus := some .ok }

theorem witness_FormatsPlaceTheirFields :
    (pieceRec.decision = none ∧ pieceRec.dispatch = none ∧ pieceRec.stacker = none ∧ pieceRec.winner = none ∧
      pieceRec.position = none ∧ pieceRec.print = none ∧ pieceRec.printStatus = none) ∧
    (fullRec.decision.isSome ∧ fullRec.dispatch.isSome ∧ fullRec.stacker.isSome ∧ fullRec.winner.isSome ∧
      fullRec.position.isSome ∧ fullRec.printStatus.isSome ∧ fullRec.print = some (.print 30 27 0) ∧
      ({ fullRec with print := some (.skip .hold) } : PieceRecord).print = some (.skip .hold)) ∧
    (running.tally.active = .a ∧ ({ running.tally with active := .b } : TallyUnit).active = .b ∧
      running.tally.pending = none ∧
      (withBank writing (some { reason := .limit, merged := true }) []).tally.pending =
        some { reason := .limit, merged := true }) := by
  decide

/-! ## Witnesses: rules of the detectors and the decision unit -/

theorem witness_SamplesAreCorrectedJudgedAndTallied :
    [CompareMode.above, .below, .inside, .outside].map (fun k => ({ channel := .l, mode := k, lo := 5, hi := 5 } : Comparison).mode) =
        [.above, .below, .inside, .outside] ∧
      (({ aboveRecord with mode := 2, lo := 601 } : ComparisonRecord).mode = 2 ∧
        min ({ aboveRecord with mode := 2, lo := 601 } : ComparisonRecord).hi.toNat 1023 <
          min ({ aboveRecord with mode := 2, lo := 601 } : ComparisonRecord).lo.toNat 1023) ∧
      (ChannelCorrection.unity.black = 0 ∧ ChannelCorrection.unity.gain = 256 ∧ 1023 ≤ 1023) ∧
      ((1 : Nat) ≤ 8 ∧ (50 : Nat) ≤ 50) ∧
      (inBand 96 0 63 63 .top = true ∧ inBand 1 0 63 63 .top = false ∧
        (Settings.default.tests.get .ph).hit { v := 0, r := 0, l := 601 } = true ∧
        (Settings.default.tests.get .ph).hit { v := 0, r := 0, l := 600 } = false ∧
        ZoneWork.idle.line ≠ some (2001, 0)) := by
  decide

/-- Piece 820's lines: position, extent and tally. -/
def lines820 : List (Nat × Nat × Tally) := (List.range 20).map fun i => (20 + i, 329, { h := 31, overs := 0, ysum := 837 })

theorem witness_ZoneResultsStayWithinTheirLines :
    lines820 ≠ [] ∧ (∀ q ∈ lines820, 20 ≤ q.1 ∧ q.1 ≤ 39 ∧ 329 ≤ q.2.1 ∧ q.2.1 ≤ 329 ∧ 1 ≤ q.2.2.h ∧
      27 * q.2.2.h ≤ q.2.2.ysum ∧ q.2.2.ysum ≤ 27 * q.2.2.h) := by
  decide

/-- A PH candidate. -/
def candidate (c : Corner) (score : Nat) : Candidate := { corner := c, cls := .ph, zone := presentRec score }

theorem witness_FullDecisionRanksAndReads :
    TraySet.default.facing[(candidate 4 2300).corner] = .cull ∧ TraySet.default.facing[(candidate 3 2860).corner] ≠ .cull ∧
      ([candidate 4 2300] = [] ++ candidate 4 2300 :: [] ∧ (candidate 4 2300).cls = (candidate 3 2860).cls ∧
        TraySet.default.facing[(candidate 4 2300).corner] ≠ TraySet.default.facing[(candidate 3 2860).corner] ∧
        (candidate 3 2860).zone.score * 80 ≤ (candidate 4 2300).zone.score * 100) ∧
      (candidate 4 2280).zone.score * 100 < (candidate 3 2860).zone.score * 80 := by
  decide

/-- Piece 2001 with both sides CLOSED, with or without a decision. -/
def bothClosed (d : Option Decision) : Entry :=
  let q : SideRecord := { SideRecord.notSeen with state := .closed, n := 300 }
  { e2001 with sides := { face := q, back := q }, decision := d }

/-- An entry whose PH records of corners 0 and 1 hold 300 and 400 hits. -/
def bothEarly : Entry :=
  { e2001 with zones := Vector.ofFn fun c => { ph := { presentRec 300 with hits := 300 + 100 * c.val }, col := ZoneRecord.empty, fl := ZoneRecord.empty } }

/-- Every corner PASS. -/
def allPass : Vector Action 8 := Vector.replicate 8 .pass

/-- The default settings with E of PH at 300. -/
def early300 : Settings :=
  { Settings.default with tests := { Settings.default.tests with ph := { ClassTest.defaultPh with earlyHits := 300 } } }

theorem witness_DecisionsAreWrittenInTheEntry :
    (∀ d ∈ [none, some (decisionOf .stamp none)], (withEntries [bothClosed d]).pieces.Nodup ∧
      (withEntries [bothClosed d]).entry? 2001 = some (bothClosed d) ∧ (bothClosed d).running = true ∧
      (bothClosed d).sides.face.state = .closed ∧ (bothClosed d).sides.back.state = .closed ∧ (bothClosed d).decision = d) ∧
    ((withEntries [e2001]).entry? 2001 = some e2001 ∧ e2001.sides.face.state ≠ .closed) ∧
    (Settings.default.decision.ranks.get .ph = 1 ∧ ∀ k, Settings.default.decision.ranks.get k = 1 → k = .ph) ∧
    (bothEarly.running = true ∧ bothEarly.decision = none ∧ bothEarly.dispatch = none ∧
      (early300.tests.get .ph).earlyHits ≠ 0) ∧
    ((bothEarly.EarlyAt early300 allPass .ph 0 ∧ bothEarly.EarlyAt early300 allPass .ph 1) ∧
      bothEarly.EarlyFrom early300 allPass .ph .face 0) := by
  refine ⟨?_, by decide, ⟨rfl, by intro k h; cases k <;> first | rfl | cases h⟩, by decide, ?_⟩
  · intro d h
    simp only [List.mem_cons, List.not_mem_nil, or_false] at h
    obtain rfl | rfl := h <;> exact ⟨by decide, rfl, rfl, rfl, rfl, rfl⟩
  · unfold Entry.EarlyFrom Entry.EarlyAt
    decide +kernel

theorem witness_PositionsAndPlansFollowTheOutcome :
    Settings.default.decision.xMin ≤ Settings.default.decision.xMax ∧
      Settings.default.decision.yMin ≤ Settings.default.decision.yMax ∧
      (verdictOf Settings.default.decision TraySet.default.facing [candidate 3 2860]).winner =
        some (candidate 3 2860).winner ∧
      (verdictOf Settings.default.decision TraySet.default.facing [candidate 3 2860]).outcome = .stamp ∧
      ((verdictOf Settings.default.decision TraySet.default.facing [{ candidate 3 2860 with cls := .fl }]).winner =
          some ({ candidate 3 2860 with cls := .fl } : Candidate).winner ∧
        (verdictOf Settings.default.decision TraySet.default.facing [{ candidate 3 2860 with cls := .fl }]).outcome =
          .meter) ∧
      [(verdictOf Settings.default.decision TraySet.default.facing []).outcome,
          (verdictOf Settings.default.decision TraySet.default.facing [candidate 1 2860]).outcome] =
        [.cullNone, .cullCorner] := by
  decide

theorem witness_LaneMessagesDecodeToTheirCommands :
    encodeMessage (.grant .rpt 63) = some 0x07FB#16 ∧ encodeMessage (.credit .img 0) = some 4#16 ∧
      (0xF806#16 : BitVec 16).toNat % 8 ∈ [0, 1, 2, 6, 7] ∧ (15 : Nat) ≠ 16 ∧ decodeTableWord 16 0x0011 = none := by
  decide

/-- Section 10.9: received words and the commands they put in front of the queue: GRANT of 63 to RPT, DROP of CTL. -/
theorem test_received_words :
    (ready.withFetchWord 16 0x07FB).pending = [.grant .rpt 63] ∧ (ready.withFetchWord 16 0x000D).pending = [.drop .ctl] := by
  decide

end Sys2Proof.Tests
end

section
/-! SUPPORT. Invariants. `Kept P` lists, block by block, what it takes for every step to keep a property `P` of the state:
the path unit's own changes, the status, and one field for each operation of another block. `Kept.step` is then the
induction over requests, captures and held requests, made once for every such property. -/

namespace Sys2Proof.Machine

/-- Every block keeps `P`, whatever the path unit, the status and the setup shadows hold. -/
structure Kept (P : State → Prop) : Prop where
  pending    : ∀ s l, P s → P { s with pending := l }
  path       : ∀ s u, P s → P { s with path := u }
  status     : ∀ s u, P s → P { s with status := u }
  suspend    : ∀ s, P s → P s.suspend
  resume     : ∀ s, P s → P s.resume
  release    : ∀ s, P s → P s.releaseHold
  shadows    : ∀ s v, P s → P { s with setup := { s.setup with shadows := v } }
  lanes      : ∀ s v, P s → P { s with setup := { s.setup with laneMap := v } }
  alarm      : ∀ s v, P s → P { s with setup := { s.setup with alarmMask := v } }
  map        : ∀ s m, P s → P (s.takeMemoryMap m)
  sources    : ∀ s m, P s → P (s.takeSourceTable m)
  correction : ∀ s m, P s → P (s.takeCorrection m)
  classTest  : ∀ s m, P s → P (s.takeClassTest m)
  geometry   : ∀ s m, P s → P (s.takeGeometry m)
  decision   : ∀ s m, P s → P (s.takeDecision m)
  traySet    : ∀ s m, P s → P (s.takeTraySet m)
  run        : ∀ s, P s → P s.directRun
  drain      : ∀ s, P s → P s.directDrain
  stby       : ∀ s, P s → P s.directStby
  restart    : ∀ s, P s → P s.directRestart
  tclose     : ∀ s, P s → P (s.requestClose .tclose)
  drainEnd   : ∀ s, P s → P s.drainEndIfDue
  settle     : ∀ s, P s → P s.settlePending
  join       : ∀ s, P s → P s.joinTrayRecord
  image      : ∀ s src sd base r, P s → P (s.offerImage src sd base r)
  exit       : ∀ s gate base r, P s → P (s.takeExitWrite gate base r)
  print      : ∀ s printer base r, P s → P (s.takeStatusWrite printer base r)
  dispatch   : ∀ gate base r (q : State × FillPlan), P q.1 → P (State.takeDispatchRead gate base r q).1
  printRead  : ∀ printer base r (q : State × FillPlan), P q.1 → P (State.takePrintRead printer base r q).1
  injected   : ∀ s, P s → P s.issueInjected
  answered   : ∀ s tag st, P s → P (s.recordAnswered tag st)
  reset      : ∀ s straps, P s → P { State.resetWith straps with pending := s.pending }

/-- What every step of a fold keeps, the fold keeps. -/
theorem foldl_keeps {α σ : Type} {P : σ → Prop} {f : σ → α → σ} (hf : ∀ a x, P a → P (f a x)) (l : List α) {a : σ}
    (h : P a) : P (l.foldl f a) := by
  induction l generalizing a with
  | nil => exact h
  | cons x xs ih => exact ih (hf a x h)

namespace Kept

variable {P : State → Prop} {s : State}

/-! ### Flags and lanes -/

theorem raise (k : Kept P) (f : Flag) (h : P s) : P (s.raise f) := k.status s _ h

theorem raiseIf (k : Kept P) (b : Bool) (f : Flag) (h : P s) : P (s.raiseIf b f) := by
  cases b
  · exact h
  · exact k.raise f h

theorem refuse (k : Kept P) (r : RefusalReason) (h : P s) : P (s.refuse r) :=
  k.status _ _ (k.raiseIf _ _ (k.raise _ h))

theorem setLane (k : Kept P) (l : Lane) (u : LaneUnit) (h : P s) : P (s.setLane l u) := k.path s _ h

theorem openLane (k : Kept P) (l : Lane) (h : P s) : P (s.openLane l) := k.path _ _ (k.setLane _ _ h)

theorem closeLaneIfDue (k : Kept P) (l : Lane) (h : P s) : P (s.closeLaneIfDue l) := by
  unfold State.closeLaneIfDue
  split
  · exact k.path _ _ (k.setLane _ _ h)
  · exact h

theorem openLaneDirective (k : Kept P) (l : Lane) (h : P s) : P (s.openLaneDirective l) := by
  unfold State.openLaneDirective
  split
  · exact k.openLane l h
  · exact k.refuse _ h

theorem closeLaneDirective (k : Kept P) (l : Lane) (h : P s) : P (s.closeLaneDirective l) := by
  unfold State.closeLaneDirective
  split
  · exact k.closeLaneIfDue l (k.setLane _ _ h)
  · exact k.refuse _ h

theorem directLopen (k : Kept P) (o : BitVec 8) (h : P s) : P (s.directLopen o) := by
  unfold State.directLopen
  split
  · exact k.openLaneDirective _ h
  · exact k.refuse _ h

theorem directLclose (k : Kept P) (o : BitVec 8) (h : P s) : P (s.directLclose o) := by
  unfold State.directLclose
  split
  · exact k.closeLaneDirective _ h
  · exact k.refuse _ h

theorem takeGrant (k : Kept P) (l : Lane) (n : Nat) (h : P s) : P (s.takeGrant l n) := by
  unfold State.takeGrant
  split
  · split
    · exact k.raise _ (k.setLane _ _ h)
    · exact k.setLane _ _ h
  · exact h

theorem takeCredit (k : Kept P) (l : Lane) (n : Nat) (h : P s) : P (s.takeCredit l n) := by
  unfold State.takeCredit
  split
  · exact k.setLane _ _ h
  · exact k.setLane _ _ h
  · exact h

theorem takeDrop (k : Kept P) (l : Lane) (h : P s) : P (s.takeDrop l) := k.raise _ (k.setLane _ _ h)

/-! ### Captures -/

theorem takeLaneMap (k : Kept P) (m : LaneMapRecord) (h : P s) : P (s.takeLaneMap m) := by
  unfold State.takeLaneMap
  split
  · exact k.lanes s _ h
  · exact k.refuse _ h

/-- R162: a directive. -/
theorem takeDirective (k : Kept P) (code operand : BitVec 8) (h : P s) : P (s.takeDirective code operand) := by
  unfold State.takeDirective
  split
  · exact k.run s h
  · exact k.drain s h
  · exact k.stby s h
  · exact k.status s _ h
  · exact k.tclose s h
  · exact k.suspend s h
  · exact k.resume s h
  · exact k.release s h
  · exact k.directLopen operand h
  · exact k.directLclose operand h
  · exact k.restart s h
  · exact k.refuse _ h

/-- R150: a capture. -/
theorem takeRecord (k : Kept P) (bs : List Byte) (h : P s) : P (s.takeRecord bs) := by
  unfold State.takeRecord
  split
  · exact k.map s _ h
  · exact k.sources s _ h
  · exact k.takeLaneMap _ h
  · exact k.takeDirective _ _ h
  · exact k.alarm s _ h
  · exact k.correction s _ h
  · exact k.classTest s _ h
  · exact k.geometry s _ h
  · exact k.decision s _ h
  · exact k.traySet s _ h
  · exact k.refuse _ h

section Arrival

variable {settle : State → State}

theorem capture (k : Kept P) (hs : ∀ s, P s → P (settle s)) (bs : List Byte) (h : P s) : P (s.capture settle bs) := by
  unfold State.capture
  split
  · exact hs _ (k.takeRecord bs h)
  · exact k.takeRecord bs h

theorem takeSetupSlot (k : Kept P) (hs : ∀ s, P s → P (settle s)) (r : Request) (n : Nat) (h : P s) :
    P (State.takeSetupSlot settle r s n) := by
  unfold State.takeSetupSlot
  simp only []
  split
  · exact k.capture hs _ (k.shadows s _ h)
  · exact k.shadows s _ h

/-- R149: a write's part in the setup area. -/
theorem takeSetupWrite (k : Kept P) (hs : ∀ s, P s → P (settle s)) (host : Bool) (r : Request) (h : P s) :
    P (s.takeSetupWrite settle host r) := by
  unfold State.takeSetupWrite
  split
  · exact foldl_keeps (fun _ n => k.takeSetupSlot hs r n) _ h
  · exact k.raise _ h

theorem takePart (k : Kept P) (hs : ∀ s, P s → P (settle s)) (src : Option SourceTable) (r : Request)
    (q : State × FillPlan) (p : Nat × Part) (h : P q.1) : P (State.takePart settle src r q p).1 := by
  unfold State.takePart
  split
  · exact k.takeSetupWrite hs _ r h
  · exact k.image _ _ _ _ _ h
  · exact k.exit _ _ _ _ h
  · exact k.print _ _ _ _ h
  · exact k.dispatch _ _ _ _ h
  · exact k.printRead _ _ _ _ h
  · exact h

/-- R171: what the watching blocks do with a request. -/
theorem offer (k : Kept P) (hs : ∀ s, P s → P (settle s)) (r : Request) (h : P s) : P (s.offer settle r).1 :=
  foldl_keeps (P := fun q : State × FillPlan => P q.1) (k.takePart hs _ r) _ h

theorem arrive (k : Kept P) (hs : ∀ s, P s → P (settle s)) (l : UpLane) (r : Request) (h : P s) :
    P (s.arrive settle l r) := by
  unfold State.arrive
  split
  · exact k.offer hs r (k.path s _ h)
  · exact k.path _ _ (k.offer hs r h)

end Arrival

/-- R170: the arrival of held requests, one after another. -/
theorem admitHeld (k : Kept P) : ∀ (n : Nat) (s : State), P s → P (s.admitHeld n)
  | 0, _, h => h
  | n + 1, s, h => by
    have ih := k.admitHeld n
    unfold State.admitHeld
    split
    · exact h
    · have hb : ∀ (t : State) (c : BitVec 3), P t → P (t.presentBehind c) := by
        intro t c ht
        unfold State.presentBehind
        split
        · exact k.path t _ ht
        · exact ht
      exact ih _ (k.arrive ih _ _ (hb _ _ (k.path s _ h)))

theorem settleHeld (k : Kept P) (h : P s) : P s.settleHeld := k.admitHeld _ s h

/-- R168 to R170: a request presented at the U-port. -/
theorem present (k : Kept P) (r : Request) (h : P s) : P (s.present r) := by
  unfold State.present
  split
  · exact k.path s _ h
  · split
    · exact k.settleHeld (k.arrive (fun _ => k.settleHeld) _ r h)
    · exact k.path s _ h

/-! ### Issue and response -/

theorem issueForward (k : Kept P) (l : UpLane) (h : P s) : P (s.issueForward l) := by
  unfold State.issueForward
  split
  · exact h
  · exact k.path _ _ (k.path _ _ (k.path _ _ (k.path _ _ (k.setLane _ _ h))))

/-- R177 to R179: the arbiter's next issue. -/
theorem issueNext (k : Kept P) (h : P s) : P s.issueNext := by
  unfold State.issueNext
  split
  · unfold State.issueLane
    split
    · exact k.settleHeld (k.issueForward .img h)
    · exact k.settleHeld (k.issueForward .ctl h)
    · exact k.settleHeld (k.issueForward .blk h)
    · exact k.injected s h
  · exact h

theorem deliver (k : Kept P) (i : Issued) (st : Status) (data : List Byte) (h : P s) : P (s.deliver i st data) := by
  unfold State.deliver
  split
  · exact k.answered s _ _ h
  · exact h
  · split
    · exact k.path s _ h
    · exact k.path s _ h

/-- R180: a response. -/
theorem takeResponse (k : Kept P) (source : BitVec 4) (tag : BitVec 8) (st : Status) (data : List Byte) (h : P s) :
    P (s.takeResponse source tag st data) := by
  unfold State.takeResponse
  split
  · exact k.closeLaneIfDue _ (k.deliver _ _ _ (k.setLane _ _ (k.path s _ h)))
  · split
    · exact h
    · exact k.path s _ h

/-! ### Commands and steps -/

/-- Every command keeps what every block keeps. -/
theorem exec (k : Kept P) (c : Instr) {t : State} (h : P s) (e : exec c s = .next t) : P t := by
  cases c <;> injection e with e <;> subst e
  case pinReset straps => exact k.reset s straps h
  case requestPresentation r => exact k.present r h
  case requestArrival r => exact k.present r h
  case heldRequestArrival => exact k.settleHeld h
  case imageWrite r => exact k.present r h
  case setupWrite r => exact k.present r h
  case memoryMap m => exact k.map s m h
  case sourceTable m => exact k.sources s m h
  case laneMap m => exact k.settleHeld (k.takeLaneMap m h)
  case alarm mask => exact k.alarm s _ h
  case correction m => exact k.correction s m h
  case classTest m => exact k.classTest s m h
  case geometry m => exact k.geometry s m h
  case decision m => exact k.decision s m h
  case traySet m => exact k.traySet s m h
  case run => exact k.run s h
  case drain => exact k.drain s h
  case stby => exact k.stby s h
  case clrs => exact k.status s _ h
  case tclose => exact k.tclose s h
  case csusp => exact k.suspend s h
  case cres => exact k.resume s h
  case crel => exact k.release s h
  case lopen o => exact k.directLopen o h
  case lclose o => exact k.directLclose o h
  case restart => exact k.restart s h
  case drainEnd => exact k.drainEnd s h
  case dispatchRead r => exact k.present r h
  case printRead r => exact k.present r h
  case liveRead r => exact k.present r h
  case exitWrite r => exact k.present r h
  case printStatusWrite r => exact k.present r h
  case grant l n => exact k.takeGrant l _ h
  case credit l n => exact k.takeCredit l _ h
  case drop l => exact k.takeDrop l h
  case issue => exact k.issueNext h
  case response source tag st data => exact k.takeResponse source tag st data h
  case pendingClose => exact k.settle s h
  case trayRecordJoining => exact k.join s h
  case close l => exact k.closeLaneIfDue l h

/-- Every step keeps what every block keeps. -/
theorem step (k : Kept P) {t : State} (h : P s) (e : step s = .next t) : P t := by
  unfold Machine.step at e
  split at e
  · injection e with e
    exact e ▸ h
  · exact k.exec _ (k.pending s _ h) e

end Kept

/-! ### Image writes and exit words -/

/-- The entry a piece number names, or its absence, is not changed by inspection. -/
theorem InspectFrame.entry?_eq_none {s t : State} (h : InspectFrame s t) {p : Nat} (hn : s.entry? p = none) :
    t.entry? p = none := by
  unfold State.entry? at hn ⊢
  rw [List.find?_eq_none] at hn ⊢
  intro e he
  obtain ⟨f, hf, hfe⟩ := List.mem_map.mp (h.pieces ▸ List.mem_map_of_mem he : e.piece ∈ s.entries.map Entry.piece)
  simpa [hfe] using hn f hf

/-- R6: only a LEAD of a piece without an entry opens one. -/
theorem State.entry?_of_newPiece {s : State} {sd : Side} {h : Header}
    (hc : s.checkHeader sd h = .newPiece) : s.entry? h.piece = none := by
  unfold State.checkHeader at hc
  split at hc
  · cases hc
  · split at hc
    · assumption
    · repeat' split at hc
      all_goals cases hc

/-- `P` is kept by whatever inspection does to pieces that are already open, by the open of a piece that has no entry, and
by the count of an uninspected one. -/
structure KeptByInspection (P : State → Prop) : Prop where
  inspect : ∀ s t, InspectFrame s t → P s → P t
  opens   : ∀ s p, s.mode = .run → s.entry? p = none → P s → P (s.openEntry p)
  counts  : ∀ s p, P s → P (s.countUninspected p)

namespace KeptByInspection

variable {P : State → Prop} {s : State}

/-- R9: a LEAD for a piece without an entry. -/
theorem newPieceHeader (k : KeptByInspection P) (sd : Side) (slot : Nat) (h : Header) (hn : s.entry? h.piece = none)
    (hp : P s) : P (s.newPieceHeader sd slot h) := by
  have ft := s.truncateOpen_inspect sd h.piece
  have ht := k.inspect _ _ ft hp
  unfold State.newPieceHeader
  simp only []
  split
  · rename_i hm
    have ho := k.opens _ _ hm (ft.entry?_eq_none hn) ht
    exact k.inspect _ _ ((State.markMissingSides_inspect _ _ _).trans (State.acceptHeader_inspect _ _ _ _)) ho
  · exact k.inspect _ _ (State.setParser_inspect _ _ _) (k.counts _ _ ht)

/-- R6 to R11: a readable header. -/
theorem takeHeader (k : KeptByInspection P) (sd : Side) (slot : Nat) (h : Header) (hp : P s) :
    P (s.takeHeader sd slot h) := by
  unfold State.takeHeader
  split
  · exact k.inspect _ _ (s.malformedHeader_inspect _ _) hp
  · exact k.inspect _ _ (s.strayHeader_inspect _ _ _) hp
  · rename_i hc
    exact k.newPieceHeader sd slot h (State.entry?_of_newPiece hc) hp
  · exact k.inspect _ _ (s.sideOpenHeader_inspect _ _ _) hp
  · exact k.inspect _ _ (s.strayHeader_inspect _ _ _) hp
  · exact k.inspect _ _ (s.lineLimitHeader_inspect _ _) hp
  · exact k.inspect _ _ (s.mismatchHeader_inspect _ _) hp
  · exact k.inspect _ _ (s.acceptHeader_inspect _ _ _) hp

/-- R2, R5, R13: an image write. -/
theorem takeImageWrite (k : KeptByInspection P) (sd : Side) (base : Nat) (r : Request) (hp : P s) :
    P (s.takeImageWrite sd base r) := by
  have beats : ∀ (t : State) (aligned : Bool) (slotBase : Nat) (l : List Nat), P t →
      P (l.foldl (State.takeBeat sd r aligned slotBase) t) := fun t aligned slotBase l ht =>
    foldl_keeps (P := P) (fun u b => k.inspect _ _ (State.takeBeat_inspect u sd r aligned slotBase b)) l ht
  unfold State.takeImageWrite
  simp only []
  split
  · refine beats _ _ _ _ ?_
    have hf := k.inspect _ _ (s.faultInLine_inspect sd) hp
    unfold State.headerWrite
    simp only []
    split
    · exact k.takeHeader _ _ _ hf
    · exact k.inspect _ _ ((State.raise_inspect _ _).trans (State.setParser_inspect _ _ _)) hf
  · exact beats _ _ _ _ (k.inspect _ _ (s.faultStraySlot_inspect _ _) hp)

end KeptByInspection

/-- `P` is kept by what an exit word brings about. -/
structure KeptByExits (P : State → Prop) : Prop where
  raise    : ∀ s f, P s → P (s.raise f)
  take     : ∀ s p st jam, P s → P (s.modifyEntry p (Entry.takeExit st jam))
  retire   : ∀ s c p, P s → P (s.retire c p)
  age      : ∀ s l, P s → P (s.ageOlder l)
  drainEnd : ∀ s, P s → P s.drainEndIfDue

namespace KeptByExits

variable {P : State → Prop} {s : State}

/-- R87, R89, R83: an exit word that passed R86. -/
theorem exit (k : KeptByExits P) (p st : Nat) (jam : Bool) (hp : P s) : P (s.exit p st jam) := by
  unfold State.exit
  have hr := k.retire _ .exit p (k.take s p st jam hp)
  exact k.drainEnd _ (foldl_keeps (fun t q ht => k.raise _ _ (k.retire t .lost q ht)) _ (k.age _ _ hr))

/-- R86: one exit word. -/
theorem exitWord (k : KeptByExits P) (gate : Option Nat) (r : Request) (base j : Nat) (hp : P s) :
    P (State.exitWord gate r base s j) := by
  have stray := k.raise s .strayWrite hp
  unfold State.exitWord
  split
  · exact stray
  · split
    · exact stray
    · simp only []
      split
      · exact stray
      · split
        · exact stray
        · exact k.exit _ _ _ hp

/-- R86: a write's part in the exit window. -/
theorem takeExitWrite (k : KeptByExits P) (gate : Option Nat) (base : Nat) (r : Request) (hp : P s) :
    P (s.takeExitWrite gate base r) := by
  unfold State.takeExitWrite
  split
  · exact hp
  · exact foldl_keeps (fun _ j => k.exitWord gate r base j) _ hp

end KeptByExits

/-! ### Reads and status words -/

/-- What an answered read and a print status word leave alone: generations, tray sets, mode, parsers, zone work, and the
numbers of the entries in their order. -/
structure AnswerFrame (s t : State) : Prop where
  gens    : t.gens = s.gens
  trays   : t.trays = s.trays
  mode    : t.mode = s.mode
  parsers : t.parsers = s.parsers
  zones   : t.zones = s.zones
  pieces  : t.pieces = s.pieces

theorem AnswerFrame.refl (s : State) : AnswerFrame s s := ⟨rfl, rfl, rfl, rfl, rfl, rfl⟩

theorem AnswerFrame.trans {s t u : State} (h : AnswerFrame s t) (k : AnswerFrame t u) : AnswerFrame s u :=
  ⟨k.gens.trans h.gens, k.trays.trans h.trays, k.mode.trans h.mode, k.parsers.trans h.parsers, k.zones.trans h.zones,
    k.pieces.trans h.pieces⟩

theorem State.raise_answer (s : State) (f : Flag) : AnswerFrame s (s.raise f) := ⟨rfl, rfl, rfl, rfl, rfl, rfl⟩

theorem State.modifyEntry_answer (s : State) (p : Nat) {f : Entry → Entry} (hf : ∀ e, (f e).piece = e.piece) :
    AnswerFrame s (s.modifyEntry p f) :=
  ⟨rfl, rfl, rfl, rfl, rfl, s.modifyEntry_pieces p hf⟩

@[simp] theorem Entry.addRemarkIf_piece (e : Entry) (b : Bool) (k : Remark) : (e.addRemarkIf b k).piece = e.piece :=
  (e.addRemarkIf_inspected b k).piece

theorem Entry.recordStatus_piece (st : PrintStatus) (e : Entry) : (e.recordStatus st).piece = e.piece := by
  cases st <;> rfl

/-- R97 to R101: a dispatch read of a matched entry. -/
theorem State.answerDispatch_answer (s : State) (e : Entry) : AnswerFrame s (s.answerDispatch e).1 := by
  unfold State.answerDispatch
  split
  · exact .refl s
  · split
    · exact s.modifyEntry_answer _ fun _ => rfl
    · exact (s.modifyEntry_answer _ (f := Entry.storeLate _) fun _ => rfl).trans (State.raise_answer _ _)

/-- R114 to R117: a print read of a matched entry. -/
theorem State.answerPrint_answer (s : State) (e : Entry) : AnswerFrame s (s.answerPrint e).1 := by
  unfold State.answerPrint
  split
  · exact .refl s
  · exact s.modifyEntry_answer _ fun e => Entry.addRemarkIf_piece _ _ _

/-- R93: a read's part in the dispatch window. -/
theorem State.takeDispatchRead_answer (gate : Option Nat) (base : Nat) (r : Request) (q : State × FillPlan) :
    AnswerFrame q.1 (State.takeDispatchRead gate base r q).1 := by
  refine foldl_frame (R := fun a b : State × FillPlan => AnswerFrame a.1 b.1) (fun _ => .refl _)
    (fun _ _ _ => AnswerFrame.trans) (fun a j => ?_) _ q
  unfold State.dispatchSlot
  split
  · exact .refl _
  · split
    · exact .refl _
    · exact State.answerDispatch_answer _ _

/-- R111: a read's part in the print window. -/
theorem State.takePrintRead_answer (printer : Option Nat) (base : Nat) (r : Request) (q : State × FillPlan) :
    AnswerFrame q.1 (State.takePrintRead printer base r q).1 := by
  refine foldl_frame (R := fun a b : State × FillPlan => AnswerFrame a.1 b.1) (fun _ => .refl _)
    (fun _ _ _ => AnswerFrame.trans) (fun a j => ?_) _ q
  unfold State.printSlot
  split
  · exact .refl _
  · split
    · exact .refl _
    · exact State.answerPrint_answer _ _

theorem State.countMisprint_answer (s : State) (st : PrintStatus) : AnswerFrame s (s.countMisprint st) := by
  cases st
  case misprint =>
    unfold State.countMisprint
    simp only []
    split <;> exact ⟨rfl, rfl, rfl, rfl, rfl, rfl⟩
  all_goals exact ⟨rfl, rfl, rfl, rfl, rfl, rfl⟩

/-- R119, R120: a status word that passed R118. -/
theorem State.takeStatus_answer (s : State) (p : Nat) (st : PrintStatus) : AnswerFrame s (s.takeStatus p st) := by
  have held : AnswerFrame s (if st.holds = true then s.hold else s) := by
    split
    · exact ⟨rfl, rfl, rfl, rfl, rfl, rfl⟩
    · exact .refl s
  unfold State.takeStatus
  simp only []
  split
  · exact held.trans (State.raise_answer _ _)
  · split
    · exact (held.trans (State.modifyEntry_answer _ _ fun e => e.recordStatus_piece st)).trans
        (State.countMisprint_answer _ _)
    · exact held.trans (State.raise_answer _ _)

/-- R118: a write's part in the print status window. -/
theorem State.takeStatusWrite_answer (s : State) (printer : Option Nat) (base : Nat) (r : Request) :
    AnswerFrame s (s.takeStatusWrite printer base r) := by
  unfold State.takeStatusWrite
  split
  · exact .refl s
  · refine foldl_frame AnswerFrame.refl (fun _ _ _ => AnswerFrame.trans) (fun t j => ?_) _ s
    unfold State.statusWord
    split
    · exact t.raise_answer _
    · split
      · exact t.raise_answer _
      · simp only []
        split
        · exact t.raise_answer _
        · split
          · exact t.raise_answer _
          · exact t.takeStatus_answer _ _

/-- R140: the issue of a record. -/
theorem State.issueInjected_answer (s : State) : AnswerFrame s s.issueInjected := by
  have same : ∀ (u : TallyUnit) (p : Report), AnswerFrame s { s with tally := u, report := p } := fun _ _ =>
    ⟨rfl, rfl, rfl, rfl, rfl, rfl⟩
  have spend : ∀ t : State, AnswerFrame t t.spendFree := fun t => by
    unfold State.spendFree
    split <;> exact ⟨rfl, rfl, rfl, rfl, rfl, rfl⟩
  have sent : ∀ (t : State) (r : Request) (i : Issued), AnswerFrame t ((t.charge .rpt).send r i) := fun _ _ _ =>
    ⟨by simp, by simp, by simp, by simp, by simp, by simp [State.pieces]⟩
  unfold State.issueInjected
  split
  · exact .refl s
  · split
    · exact .refl s
    · simp only []
      refine AnswerFrame.trans ?_ (sent _ _ _)
      refine AnswerFrame.trans ?_ (spend _)
      exact same _ _

end Sys2Proof.Machine
end

section
/-! PROOF. O13: the settings stay in their ranges (R23, R24, R151 to R158). -/

namespace Sys2Proof

open Sys2Proof.Machine

/-! ### What a record in range gives -/

theorem clampTo_le (top n : Nat) : clampTo top n ≤ top := Nat.min_le_right n top

theorem ComparisonRecord.comparison_inRange {m : ComparisonRecord} {q : Comparison} (h : m.comparison = some q) :
    q.InRange := by
  unfold ComparisonRecord.comparison at h
  split at h
  · rename_i ch md _ _
    simp only [] at h
    split at h
    · cases h
    · rename_i hord
      injection h with h
      subst h
      refine ⟨clampTo_le _ _, clampTo_le _ _, fun hm => ?_⟩
      exact Nat.le_of_not_lt fun hlt => hord ⟨hm, hlt⟩
  · cases h

theorem ClassTestRecord.secondaryTest_inRange {m : ClassTestRecord} {q : Option Comparison}
    (h : m.secondaryTest = some q) : ∀ c, q = some c → c.InRange := by
  unfold ClassTestRecord.secondaryTest at h
  split at h
  · obtain ⟨d, hd, rfl⟩ := Option.map_eq_some_iff.mp h
    intro c hc
    injection hc with hc
    exact hc ▸ ComparisonRecord.comparison_inRange hd
  · injection h with h
    subst h
    intro c hc
    cases hc

/-- R154: the test of a CLASS_TEST record in range. -/
theorem ClassTestRecord.test_inRange {m : ClassTestRecord} {q : Cls × ClassTest} (h : m.test = some q) :
    q.2.InRange := by
  unfold ClassTestRecord.test at h
  split at h
  · rename_i p s _ hp hs
    split at h
    · rename_i hn
      injection h with h
      subst h
      simp only [ClassTestRecord.numbersInRange, Bool.and_eq_true, Bool.or_eq_true, decide_eq_true_eq] at hn
      obtain ⟨⟨⟨⟨⟨⟨hrun, hl⟩, hl'⟩, hh⟩, hh'⟩, hw⟩, he⟩ := hn
      have hpos : ∀ b : BitVec 8, b ≠ 0 → 1 ≤ b.toNat ∧ b.toNat ≤ 255 := by
        intro b hb
        have : b.toNat ≠ 0 := fun h0 => hb (BitVec.eq_of_toNat_eq h0)
        omega
      refine ⟨ComparisonRecord.comparison_inRange hp, secondaryTest_inRange hs, hpos _ hrun, ⟨hl, hl'⟩, ⟨hh, hh'⟩, hpos _ hw, ?_⟩
      exact he.imp id fun he => ⟨he, clampTo_le _ _⟩
    · cases h
  · cases h

/-- R158: the tray set of a TRAY_SET record in range. -/
theorem TraySetRecord.traySet_inRange {m : TraySetRecord} (h : m.inRange = true) : m.traySet.InRange := by
  simp only [TraySetRecord.inRange, Bool.and_eq_true, List.all_eq_true, decide_eq_true_eq] at h
  obtain ⟨⟨⟨⟨⟨_, hst⟩, hph⟩, hcol⟩, hage⟩, hage'⟩ := h
  refine ⟨?_, ⟨hph, hcol⟩, ?_, ⟨hage, hage'⟩⟩
  · intro n hn
    simp only [TraySetRecord.traySet, Vector.toList_map, List.mem_map] at hn
    obtain ⟨b, hb, rfl⟩ := hn
    exact hst b hb
  · have := m.pieceLimit.isLt
    simp only [TraySetRecord.traySet]
    omega

theorem ChannelRecord.clamped_inRange (c : ChannelRecord) : c.clamped.black ≤ 255 ∧ c.clamped.gain ≤ 1023 :=
  ⟨clampTo_le _ _, clampTo_le _ _⟩

end Sys2Proof

namespace Sys2Proof.Machine

/-! ### The settings of a record put in their place -/

theorem Settings.InRange.withCorrection {st : Settings} (h : st.InRange) (sd : Side) (m : CorrectionRecord) :
    Settings.InRange { st with correction := st.correction.set sd m.correction } := by
  have hv := m.v.clamped_inRange
  have hr := m.r.clamped_inRange
  have hl := m.l.clamped_inRange
  refine { h with black := fun sd' => ?_, gain := fun sd' => ?_ }
  · by_cases hsd : sd' = sd
    · subst hsd
      simpa using ⟨hv.1, hr.1, hl.1⟩
    · simpa [PerSide.get_set_ne _ _ hsd] using h.black sd'
  · by_cases hsd : sd' = sd
    · subst hsd
      simpa using ⟨hv.2, hr.2, hl.2⟩
    · simpa [PerSide.get_set_ne _ _ hsd] using h.gain sd'

theorem Settings.InRange.withTest {st : Settings} (h : st.InRange) (k : Cls) {t : ClassTest} (ht : t.InRange) :
    Settings.InRange { st with tests := st.tests.set k t } := by
  refine { h with tests := fun k' => ?_ }
  by_cases hk : k' = k
  · subst hk
    simpa using ht
  · simpa [PerClass.get_set_ne _ _ hk] using h.tests k'

theorem Settings.InRange.withGeometry {st : Settings} (h : st.InRange) {m : GeometryRecord} (hm : m.inRange = true) :
    Settings.InRange { st with geometry := m.geometry } := by
  simp only [GeometryRecord.inRange, Bool.and_eq_true, decide_eq_true_eq] at hm
  obtain ⟨⟨⟨⟨⟨⟨hzw, hzw'⟩, hzh⟩, hzh'⟩, hll⟩, hll'⟩, hlf⟩ := hm
  exact { h with zw := ⟨hzw, hzw'⟩, zh := ⟨hzh, hzh'⟩, lines := ⟨hll, hll'⟩, faults := hlf }

theorem Settings.InRange.withDecision {st : Settings} (h : st.InRange) {m : DecisionRecord}
    (hm : m.settings.inRange = true) : Settings.InRange { st with decision := m.settings } := by
  simp only [DecisionSettings.inRange, Bool.and_eq_true, decide_eq_true_eq] at hm
  obtain ⟨⟨hr, hx⟩, hy⟩ := hm
  have hmargin : m.settings.margin ≤ 100 := max_le (by decide) (clampTo_le _ _)
  exact { h with
    ranks := hr, margin := ⟨le_max_left _ _, hmargin⟩, xBand := ⟨hx, clampTo_le _ _⟩, yBand := ⟨hy, clampTo_le _ _⟩
    distance := clampTo_le _ _ }

/-! ### The default settings -/

theorem Settings.default_inRange : Settings.default.InRange where
  black := fun sd => by cases sd <;> decide
  gain := fun sd => by cases sd <;> decide
  tests := by
    have hnone : ∀ q : Comparison, (none : Option Comparison) = some q → q.InRange := fun q hq => by cases hq
    intro k
    cases k
    · exact ⟨⟨by decide, by decide, by decide⟩, hnone, by decide, by decide, by decide, by decide, by decide⟩
    · exact ⟨⟨by decide, by decide, by decide⟩, hnone, by decide, by decide, by decide, by decide, by decide⟩
    · refine ⟨⟨by decide, by decide, by decide⟩, fun q hq => ?_, by decide, by decide, by decide, by decide, by decide⟩
      injection hq with hq
      subst hq
      exact ⟨by decide, by decide, by decide⟩
  zw := by decide
  zh := by decide
  lines := by decide
  faults := by decide
  ranks := by decide
  margin := by decide
  xBand := by decide
  yBand := by decide
  distance := by decide

theorem TraySet.default_inRange : TraySet.default.InRange where
  stackers := by decide
  dies := by decide
  limit := by decide
  age := by decide

/-- R79, R135: the settings after pin reset and RESTART. -/
theorem State.settingsLaw_of_reset {s : State} (hg : s.gens = Generations.reset) (ht : s.trays = TraySets.reset) :
    s.SettingsLaw where
  newest := by rw [hg]; exact Settings.default_inRange
  older := by rw [hg]; exact fun _ h => nomatch h
  staged := by rw [hg]; exact Settings.default_inRange
  inForce := by rw [ht]; exact TraySet.default_inRange
  next := by rw [ht]; exact TraySet.default_inRange

/-! ### What the shared operations do to the settings -/

theorem State.SettingsLaw.of_same {s t : State} (h : s.SettingsLaw) (hg : t.gens = s.gens) (ht : t.trays = s.trays) :
    t.SettingsLaw := by
  obtain ⟨newest, older, staged, inForce, next⟩ := h
  exact ⟨hg ▸ newest, hg ▸ older, hg ▸ staged, ht ▸ inForce, ht ▸ next⟩

theorem State.SettingsLaw.inspect {s t : State} (h : s.SettingsLaw) (f : InspectFrame s t) : t.SettingsLaw where
  newest := f.newest ▸ h.newest
  older := fun g hg => h.older g (f.older.subset hg)
  staged := f.staged ▸ h.staged
  inForce := f.trays ▸ h.inForce
  next := f.trays ▸ h.next

/-- R77: the staged set becomes the newest generation, and of the others some are kept. -/
theorem State.SettingsLaw.applyStaged {s : State} (h : s.SettingsLaw) : s.applyStaged.SettingsLaw where
  newest := h.staged
  older := by
    intro g hg
    rcases List.mem_append.mp (List.mem_of_mem_filter hg) with hg | hg
    · exact h.older g hg
    · rw [List.mem_singleton.mp hg]
      exact h.newest
  staged := h.staged
  inForce := h.inForce
  next := h.next

theorem State.SettingsLaw.applyStagedIfDirty {s : State} (h : s.SettingsLaw) : s.applyStagedIfDirty.SettingsLaw := by
  unfold State.applyStagedIfDirty
  split
  · exact h.applyStaged
  · exact h

theorem State.SettingsLaw.generationAtOpen {s : State} (h : s.SettingsLaw) : s.generationAtOpen.SettingsLaw := by
  unfold State.generationAtOpen
  split
  · exact h.applyStaged
  · exact h

theorem State.SettingsLaw.stage {s : State} (h : s.SettingsLaw) {f : Settings → Settings}
    (hf : (f s.gens.staged).InRange) : (s.stage f).SettingsLaw := by
  have ht : State.SettingsLaw { s with gens := { s.gens with staged := f s.gens.staged, dirty := true } } :=
    ⟨h.newest, h.older, hf, h.inForce, h.next⟩
  unfold State.stage
  simp only []
  split
  · exact ht.applyStaged
  · exact ht

/-- R135: the staged tray set is put in force. -/
theorem State.SettingsLaw.executeClose {s : State} (h : s.SettingsLaw) (r : CloseReason) (m : SealMark) :
    (s.executeClose r m).SettingsLaw := by
  unfold State.executeClose
  refine State.SettingsLaw.of_same ?_ (State.joinTrayRecord_gens _) (State.joinTrayRecord_trays _)
  unfold State.applyTraySetIfDirty
  split
  · exact ⟨h.newest, h.older, h.staged, h.next, h.next⟩
  · exact h.of_same rfl rfl

theorem State.SettingsLaw.requestClose {s : State} (h : s.SettingsLaw) (r : CloseReason) :
    (s.requestClose r).SettingsLaw := by
  unfold State.requestClose
  split
  · exact h.executeClose _ _
  · split
    · exact h.of_same rfl rfl
    · exact h.of_same rfl rfl

theorem State.SettingsLaw.settlePending {s : State} (h : s.SettingsLaw) : s.settlePending.SettingsLaw := by
  unfold State.settlePending
  split
  · exact (h.of_same (t := { s with tally := { s.tally with pending := none } }) rfl rfl).executeClose _ _
  · exact h

theorem State.SettingsLaw.limitCheck {s : State} (h : s.SettingsLaw) : s.limitCheck.SettingsLaw := by
  unfold State.limitCheck
  split
  · exact h.requestClose _
  · exact h

/-- R90: a retirement releases generations and may close the tray. -/
theorem State.SettingsLaw.retire {s : State} (h : s.SettingsLaw) (c : RetireCause) (p : Nat) :
    (s.retire c p).SettingsLaw := by
  unfold State.retire
  split
  · exact h
  · have hr : (s.removeEntry p).SettingsLaw :=
      ⟨h.newest, fun g hg => h.older g (List.mem_of_mem_filter hg), h.staged, h.inForce, h.next⟩
    exact (hr.of_same (by simp) (by simp)).limitCheck

theorem State.SettingsLaw.enterStandby {s : State} (h : s.SettingsLaw) : s.enterStandby.SettingsLaw :=
  State.SettingsLaw.applyStagedIfDirty (h.of_same rfl rfl)

theorem State.SettingsLaw.drainEndIfDue {s : State} (h : s.SettingsLaw) : s.drainEndIfDue.SettingsLaw := by
  unfold State.drainEndIfDue
  split
  · exact (h.requestClose _).enterStandby
  · exact h

/-- R74: forcing out. -/
theorem State.SettingsLaw.forceOut {s : State} (h : s.SettingsLaw) : s.forceOut.SettingsLaw := by
  unfold State.forceOut
  split
  · exact h
  · split
    · exact (h.retire _ _).of_same rfl rfl
    · exact h

theorem State.SettingsLaw.countUninspected {s : State} (h : s.SettingsLaw) (p : Nat) :
    (s.countUninspected p).SettingsLaw := by
  unfold State.countUninspected
  split
  · exact h
  · exact h.of_same rfl rfl

theorem settingsLaw_keptByInspection : KeptByInspection State.SettingsLaw where
  inspect _ _ f h := h.inspect f
  opens _ _ _ _ h := h.forceOut.generationAtOpen.of_same rfl rfl
  counts _ p h := h.countUninspected p

theorem settingsLaw_keptByExits : KeptByExits State.SettingsLaw where
  raise _ _ h := h.of_same rfl rfl
  take _ _ _ _ h := h.of_same rfl rfl
  retire _ c p h := h.retire c p
  age _ _ h := h.of_same rfl rfl
  drainEnd _ h := h.drainEndIfDue

/-! ### The directives -/

theorem State.SettingsLaw.directRun {s : State} (h : s.SettingsLaw) : s.directRun.SettingsLaw := by
  unfold State.directRun
  split
  · exact h
  · exact h.of_same rfl rfl
  · split <;> exact h.of_same rfl rfl

theorem State.SettingsLaw.directDrain {s : State} (h : s.SettingsLaw) : s.directDrain.SettingsLaw := by
  unfold State.directDrain
  split
  · exact (h.of_same (t := { s with mode := .drain }) rfl rfl).drainEndIfDue
  · exact h.of_same (by simp) (by simp)

theorem State.SettingsLaw.directStby {s : State} (h : s.SettingsLaw) : s.directStby.SettingsLaw := by
  unfold State.directStby
  split
  · exact h
  · have hr := foldl_keeps (P := State.SettingsLaw) (f := State.abortPiece) (fun t p ht => ht.retire .aborted p)
      (s.entries.map Entry.piece) h
    exact (hr.requestClose .abort).enterStandby

theorem State.SettingsLaw.directRestart {s : State} (h : s.SettingsLaw) : s.directRestart.SettingsLaw := by
  unfold State.directRestart
  split
  · exact State.settingsLaw_of_reset rfl rfl
  · exact h.of_same (by simp) (by simp)

/-! ### Records and reads -/

theorem State.SettingsLaw.answer {s t : State} (h : s.SettingsLaw) (f : AnswerFrame s t) : t.SettingsLaw :=
  h.of_same f.gens f.trays

/-- R141: the response to a record's write may execute a pending close. -/
theorem State.SettingsLaw.recordAnswered {s : State} (h : s.SettingsLaw) (tag : Nat) (st : Status) :
    (s.recordAnswered tag st).SettingsLaw := by
  unfold State.recordAnswered
  split
  · exact h
  · rename_i q _
    have hq : (({ s with report := { s.report with queue := q.2 } } : State).raiseIf (decide (st = .err))
        .reportFault).SettingsLaw := h.of_same (by simp) (by simp)
    refine State.SettingsLaw.of_same ?_ (State.joinTrayRecord_gens _) (State.joinTrayRecord_trays _)
    split
    · exact State.SettingsLaw.settlePending (hq.of_same rfl rfl)
    · exact hq

theorem State.SettingsLaw.refuse {s : State} (h : s.SettingsLaw) (r : RefusalReason) : (s.refuse r).SettingsLaw :=
  h.of_same (by simp) (by simp)

theorem State.SettingsLaw.takeTraySet {s : State} (h : s.SettingsLaw) (m : TraySetRecord) :
    (s.takeTraySet m).SettingsLaw := by
  unfold State.takeTraySet
  split
  · rename_i hm
    have hts := TraySetRecord.traySet_inRange hm
    split
    · exact ⟨h.newest, h.older, h.staged, hts, hts⟩
    · exact ⟨h.newest, h.older, h.staged, h.inForce, hts⟩
  · exact h.refuse _

/-- Every block keeps the settings in their ranges. -/
theorem settingsLaw_kept : Kept State.SettingsLaw where
  pending _ _ h := h.of_same rfl rfl
  path _ _ h := h.of_same rfl rfl
  status _ _ h := h.of_same rfl rfl
  suspend _ h := h.of_same rfl rfl
  resume _ h := h.of_same rfl rfl
  release _ h := h.of_same rfl rfl
  shadows _ _ h := h.of_same rfl rfl
  lanes _ _ h := h.of_same rfl rfl
  alarm _ _ h := h.of_same rfl rfl
  map s m h := by
    unfold State.takeMemoryMap
    repeat' split
    all_goals first | exact h.refuse _ | exact h.of_same rfl rfl
  sources s m h := by
    unfold State.takeSourceTable
    repeat' split
    all_goals first | exact h.refuse _ | exact h.of_same rfl rfl
  correction s m h := by
    unfold State.takeCorrection
    split
    · exact h.stage (h.staged.withCorrection _ m)
    · exact h.refuse _
  classTest s m h := by
    unfold State.takeClassTest
    split
    · rename_i hm
      exact h.stage (h.staged.withTest _ (ClassTestRecord.test_inRange hm))
    · exact h.refuse _
  geometry s m h := by
    unfold State.takeGeometry
    split
    · rename_i hm
      exact h.stage (h.staged.withGeometry hm)
    · exact h.refuse _
  decision s m h := by
    unfold State.takeDecision
    split
    · rename_i hm
      exact h.stage (h.staged.withDecision hm)
    · exact h.refuse _
  traySet _ m h := h.takeTraySet m
  run _ h := h.directRun
  drain _ h := h.directDrain
  stby _ h := h.directStby
  restart _ h := h.directRestart
  tclose _ h := h.requestClose _
  drainEnd _ h := h.drainEndIfDue
  settle _ h := h.settlePending
  join s h := h.of_same (by simp) (by simp)
  image s src sd base r h := by
    unfold State.offerImage
    split
    · exact settingsLaw_keptByInspection.takeImageWrite sd base r h
    · exact h
  exit _ gate base r h := settingsLaw_keptByExits.takeExitWrite gate base r h
  print s printer base r h := h.answer (s.takeStatusWrite_answer printer base r)
  dispatch gate base r q h := h.answer (State.takeDispatchRead_answer gate base r q)
  printRead printer base r q h := h.answer (State.takePrintRead_answer printer base r q)
  injected s h := h.answer s.issueInjected_answer
  answered _ tag st h := h.recordAnswered tag st
  reset _ _ _ := State.settingsLaw_of_reset rfl rfl

/-- Settles O13: each block keeps the law, so every step does. -/
theorem stepKeepsSettingsLaw : Obligations.StepKeepsSettingsLaw := fun _ _ h e => settingsLaw_kept.step h e

end Sys2Proof.Machine
end

section
/-! PROOF. O6 and O5: the track table's laws, and parsers and zone work at rest in STANDBY (R71, R3, R28). -/

namespace Sys2Proof.Machine

/-- The laws O6 speaks of. -/
def State.Orderly (s : State) : Prop := s.TableLaw ∧ s.QuietLaw

/-- Both parsers wait and both sides' zone work is idle (R3, R28). -/
def State.AtRest (s : State) : Prop :=
  s.parsers = { face := .waitHeader, back := .waitHeader } ∧ s.zones = { face := ZoneWork.idle, back := ZoneWork.idle }

/-- The table at most loses entries, the mode stands, and what is at rest stays at rest. -/
structure ShrinkFrame (s t : State) : Prop where
  mode   : t.mode = s.mode
  pieces : t.pieces.Sublist s.pieces
  rest   : s.AtRest → t.AtRest

theorem ShrinkFrame.refl (s : State) : ShrinkFrame s s := ⟨rfl, .refl _, id⟩

theorem ShrinkFrame.trans {s t u : State} (h : ShrinkFrame s t) (k : ShrinkFrame t u) : ShrinkFrame s u :=
  ⟨k.mode.trans h.mode, k.pieces.trans h.pieces, fun x => k.rest (h.rest x)⟩

/-- Mode, entries, parsers and zone work stand. -/
theorem ShrinkFrame.of_same {s t : State} (hm : t.mode = s.mode) (he : t.entries = s.entries)
    (hp : t.parsers = s.parsers) (hz : t.zones = s.zones) : ShrinkFrame s t :=
  ⟨hm, by rw [State.pieces, he]; exact .refl _, fun h => ⟨hp.trans h.1, hz.trans h.2⟩⟩

theorem AnswerFrame.shrink {s t : State} (h : AnswerFrame s t) : ShrinkFrame s t :=
  ⟨h.mode, h.pieces ▸ .refl _, fun r => ⟨h.parsers.trans r.1, h.zones.trans r.2⟩⟩

theorem State.length_pieces (s : State) : s.pieces.length = s.entries.length := List.length_map _

theorem State.pieces_eq_nil {s : State} : s.pieces = [] ↔ s.entries = [] := List.map_eq_nil_iff

/-- The table's laws from those of a state with the same mode and no other pieces. -/
theorem State.TableLaw.of_sublist {s t : State} (h : s.TableLaw) (hm : t.mode = s.mode)
    (hp : t.pieces.Sublist s.pieces) : t.TableLaw where
  room := by
    have := hp.length_le
    rw [State.length_pieces, State.length_pieces] at this
    exact this.trans h.room
  distinct := h.distinct.sublist hp
  standby hs := by
    have hn : s.pieces = [] := State.pieces_eq_nil.mpr (h.standby (hm ▸ hs))
    exact State.pieces_eq_nil.mp (List.sublist_nil.mp (hn ▸ hp))

theorem State.Orderly.shrink {s t : State} (h : s.Orderly) (f : ShrinkFrame s t) : t.Orderly :=
  ⟨h.1.of_sublist f.mode f.pieces, fun hs => f.rest (h.2 (f.mode ▸ hs))⟩

theorem InspectFrame.pieces_eq {s t : State} (f : InspectFrame s t) : t.pieces = s.pieces := f.pieces

/-- Inspection while the mode is RUN or DRAIN. -/
theorem State.Orderly.inspect {s t : State} (h : s.Orderly) (hm : s.mode ≠ .standby) (f : InspectFrame s t) :
    t.Orderly :=
  ⟨h.1.of_sublist f.mode (by rw [f.pieces_eq]), fun hs => absurd (f.mode ▸ hs) hm⟩

/-! ### Retirement -/

theorem State.AtRest.removeEntry {s : State} (h : s.AtRest) (p : Nat) : (s.removeEntry p).AtRest := by
  obtain ⟨hp, hz⟩ := h
  simp [State.AtRest, State.removeEntry, State.releaseGenerations, hp, hz, PerSide.map, Parser.skipFor, ZoneWork.dropFor,
    ZoneWork.idle]

theorem State.removeEntry_entries (s : State) (p : Nat) :
    (s.removeEntry p).entries = s.entries.filter fun e => decide (e.piece ≠ p) := rfl

theorem State.removeEntry_shrink (s : State) (p : Nat) : ShrinkFrame s (s.removeEntry p) :=
  ⟨rfl, List.filter_sublist.map _, fun h => h.removeEntry p⟩

/-- R90: what a retirement leaves in the table. -/
theorem State.retire_entries (s : State) (c : RetireCause) (p : Nat) :
    (s.retire c p).entries = s.entries.filter fun e => decide (e.piece ≠ p) := by
  unfold State.retire
  split
  · rename_i hn
    exact (List.filter_eq_self.mpr fun e he => by simpa using State.entry?_none hn e he).symm
  · simp [State.removeEntry_entries]

theorem State.retire_mode (s : State) (c : RetireCause) (p : Nat) : (s.retire c p).mode = s.mode := by
  unfold State.retire
  split
  · rfl
  · simp

theorem State.retire_shrink (s : State) (c : RetireCause) (p : Nat) : ShrinkFrame s (s.retire c p) := by
  unfold State.retire
  split
  · exact .refl s
  · exact (s.removeEntry_shrink p).trans (.of_same (by simp) (by simp) (by simp) (by simp))

/-- R84: once every entry has retired, none is left. -/
theorem State.abortAll_entries (s : State) :
    ((s.entries.map Entry.piece).foldl State.abortPiece s).entries = [] := by
  have key : ∀ (l : List Nat) (t : State), (∀ e ∈ t.entries, e.piece ∈ l) →
      (l.foldl State.abortPiece t).entries = [] := by
    intro l
    induction l with
    | nil =>
      intro t ht
      exact List.eq_nil_iff_forall_not_mem.mpr fun e he => nomatch ht e he
    | cons p ps ih =>
      intro t ht
      refine ih _ fun e he => ?_
      rw [State.abortPiece, State.retire_entries] at he
      obtain ⟨hm, hne⟩ := List.mem_filter.mp he
      exact (List.mem_cons.mp (ht e hm)).resolve_left (by simpa using hne)
  exact key _ s fun e he => List.mem_map_of_mem he

/-! ### Modes -/

/-- STANDBY on an empty table is orderly. -/
theorem State.enterStandby_orderly {s : State} (h : s.entries = []) : s.enterStandby.Orderly := by
  rw [State.enterStandby_eq_atRest h]
  exact ⟨⟨by simp [State.atRest, h], by simp [State.pieces, State.atRest, h], fun _ => h⟩, fun _ => ⟨rfl, rfl⟩⟩

theorem State.Orderly.drainEndIfDue {s : State} (h : s.Orderly) : s.drainEndIfDue.Orderly := by
  unfold State.drainEndIfDue
  split
  · rename_i hd
    exact State.enterStandby_orderly (by simp [hd.2])
  · exact h

/-- In RUN and DRAIN the mode asks nothing of parsers and zone work. -/
theorem State.Orderly.setMode {s : State} (h : s.Orderly) {m : Mode} (hm : m ≠ .standby) :
    State.Orderly { s with mode := m } :=
  ⟨⟨h.1.room, h.1.distinct, fun hs => absurd hs hm⟩, fun hs => absurd hs hm⟩

theorem State.Orderly.directRun {s : State} (h : s.Orderly) : s.directRun.Orderly := by
  have hr := h.setMode (m := .run) (by decide)
  unfold State.directRun
  split
  · exact h
  · exact hr
  · split
    · exact ⟨⟨hr.1.room, hr.1.distinct, fun hs => nomatch hs⟩, fun hs => nomatch hs⟩
    · exact h.shrink (.of_same rfl rfl rfl rfl)

theorem State.Orderly.directDrain {s : State} (h : s.Orderly) : s.directDrain.Orderly := by
  unfold State.directDrain
  split
  · exact (h.setMode (m := .drain) (by decide)).drainEndIfDue
  · exact h.shrink (.of_same (by simp) (by simp) (by simp) (by simp))

theorem State.Orderly.directStby {s : State} (h : s.Orderly) : s.directStby.Orderly := by
  unfold State.directStby
  split
  · exact h
  · exact State.enterStandby_orderly (by simp [State.abortAll_entries])

/-! ### Opening a piece -/

theorem State.forceOut_mode (s : State) : s.forceOut.mode = s.mode := by
  unfold State.forceOut
  split
  · rfl
  · split
    · exact s.retire_mode _ _
    · rfl

theorem State.forceOut_shrink (s : State) : ShrinkFrame s s.forceOut := by
  unfold State.forceOut
  split
  · exact .refl s
  · split
    · exact (s.retire_shrink _ _).trans (.of_same rfl rfl rfl rfl)
    · exact .refl s

/-- R74: forcing out leaves room for one more. -/
theorem State.forceOut_room {s : State} (h : s.entries.length ≤ 12) : s.forceOut.entries.length < 12 := by
  unfold State.forceOut
  split
  · rename_i hn
    simp [hn]
  · rename_i e es he
    split
    · rw [State.raise_entries, State.retire_entries, he, List.filter_cons_of_neg (by simp)]
      rw [he, List.length_cons] at h
      have := List.length_filter_le (fun q : Entry => decide (q.piece ≠ e.piece)) es
      omega
    · rename_i hc
      exact Nat.lt_of_not_le hc

theorem State.openEntry_pieces (s : State) (p : Nat) : (s.openEntry p).pieces = s.forceOut.pieces ++ [p] := by
  simp [State.openEntry, State.pieces, State.countOpened, Entry.fresh]

theorem State.openEntry_mode (s : State) (p : Nat) : (s.openEntry p).mode = s.mode :=
  (State.generationAtOpen_mode _).trans s.forceOut_mode

/-- R71: an open keeps the table's laws. -/
theorem State.Orderly.openEntry {s : State} (h : s.Orderly) {p : Nat} (hm : s.mode ≠ .standby)
    (hn : s.entry? p = none) : (s.openEntry p).Orderly := by
  have hs : (s.openEntry p).mode ≠ .standby := s.openEntry_mode p ▸ hm
  have hp : p ∉ s.forceOut.pieces := fun hmem => by
    obtain ⟨e, he, hep⟩ := List.mem_map.mp (s.forceOut_shrink.pieces.subset hmem)
    exact State.entry?_none hn e he hep
  refine ⟨⟨?_, ?_, fun hx => absurd hx hs⟩, fun hx => absurd hx hs⟩
  · have := State.forceOut_room h.1.room
    rw [← State.length_pieces, State.openEntry_pieces, List.length_append, State.length_pieces]
    exact this
  · rw [State.openEntry_pieces]
    exact List.nodup_append.mpr ⟨(h.shrink s.forceOut_shrink).1.distinct, List.nodup_singleton p, fun a ha b hb hab =>
      hp (by rw [← List.mem_singleton.mp hb, ← hab]; exact ha)⟩

/-! ### The blocks -/

theorem State.countUninspected_shrink (s : State) (p : Nat) : ShrinkFrame s (s.countUninspected p) := by
  unfold State.countUninspected
  split
  · exact .refl s
  · exact .of_same rfl rfl rfl rfl

/-- Orderly, and not in STANDBY: what an image write meets and keeps. -/
theorem orderly_keptByInspection : KeptByInspection fun s => s.mode ≠ .standby ∧ s.Orderly where
  inspect _ _ f h := ⟨f.mode ▸ h.1, h.2.inspect h.1 f⟩
  opens s p _ hn h := ⟨s.openEntry_mode p ▸ h.1, h.2.openEntry h.1 hn⟩
  counts s p h := ⟨(s.countUninspected_shrink p).mode ▸ h.1, h.2.shrink (s.countUninspected_shrink p)⟩

theorem Entry.takeExit_piece (st : Nat) (jam : Bool) (e : Entry) : (e.takeExit st jam).piece = e.piece := by
  unfold Entry.takeExit
  simp only []
  split
  · rw [Entry.addRemarkIf_piece, Entry.addRemarkIf_piece]
  · exact Entry.addRemarkIf_piece _ _ _

theorem State.ageOlder_pieces (s : State) (l : List Nat) : (s.ageOlder l).pieces = s.pieces := by
  simp only [State.pieces, State.ageOlder, List.map_map]
  refine List.map_congr_left fun e _ => ?_
  by_cases h : e.piece ∈ l <;> simp [h]

theorem orderly_keptByExits : KeptByExits State.Orderly where
  raise _ _ h := h.shrink (.of_same rfl rfl rfl rfl)
  take s p st jam h := h.shrink (s.modifyEntry_answer p (Entry.takeExit_piece st jam)).shrink
  retire s c p h := h.shrink (s.retire_shrink c p)
  age s l h := h.shrink ⟨rfl, s.ageOlder_pieces l ▸ .refl _, id⟩
  drainEnd _ h := h.drainEndIfDue

theorem State.stage_shrink (s : State) (f : Settings → Settings) : ShrinkFrame s (s.stage f) := by
  unfold State.stage
  simp only []
  split <;> exact .of_same rfl rfl rfl rfl

theorem State.refuse_shrink (s : State) (r : RefusalReason) : ShrinkFrame s (s.refuse r) :=
  .of_same (by simp) (by simp) (by simp) (by simp)

theorem State.joinTrayRecord_shrink (s : State) : ShrinkFrame s s.joinTrayRecord :=
  .of_same (by simp) (by simp) (by simp) (by simp)

theorem State.releaseBank_shrink (s : State) : ShrinkFrame s s.releaseBank :=
  .of_same (by simp [State.releaseBank]) (by simp [State.releaseBank]) (by simp [State.releaseBank])
    (by simp [State.releaseBank])

theorem State.recordAnswered_shrink (s : State) (tag : Nat) (st : Status) : ShrinkFrame s (s.recordAnswered tag st) := by
  unfold State.recordAnswered
  split
  · exact .refl s
  · rename_i q _
    have hq : ShrinkFrame s (({ s with report := { s.report with queue := q.2 } } : State).raiseIf
        (decide (st = .err)) .reportFault) := .of_same (by simp) (by simp) (by simp) (by simp)
    refine ShrinkFrame.trans ?_ (State.joinTrayRecord_shrink _)
    split
    · exact hq.trans (State.releaseBank_shrink _)
    · exact hq

theorem State.orderly_resetWith (straps : BitVec 16) : (State.resetWith straps).Orderly :=
  ⟨⟨Nat.zero_le 12, .nil, fun _ => rfl⟩, fun _ => ⟨rfl, rfl⟩⟩

/-- Every block keeps the table's laws, and parsers and zone work at rest in STANDBY. -/
theorem orderly_kept : Kept State.Orderly where
  pending _ _ h := h.shrink (.of_same rfl rfl rfl rfl)
  path _ _ h := h.shrink (.of_same rfl rfl rfl rfl)
  status _ _ h := h.shrink (.of_same rfl rfl rfl rfl)
  suspend _ h := h.shrink (.of_same rfl rfl rfl rfl)
  resume _ h := h.shrink (.of_same rfl rfl rfl rfl)
  release _ h := h.shrink (.of_same rfl rfl rfl rfl)
  shadows _ _ h := h.shrink (.of_same rfl rfl rfl rfl)
  lanes _ _ h := h.shrink (.of_same rfl rfl rfl rfl)
  alarm _ _ h := h.shrink (.of_same rfl rfl rfl rfl)
  map s m h := by
    unfold State.takeMemoryMap
    repeat' split
    all_goals first | exact h.shrink (s.refuse_shrink _) | exact h.shrink (.of_same rfl rfl rfl rfl)
  sources s m h := by
    unfold State.takeSourceTable
    repeat' split
    all_goals first | exact h.shrink (s.refuse_shrink _) | exact h.shrink (.of_same rfl rfl rfl rfl)
  correction s m h := by
    unfold State.takeCorrection
    split
    · exact h.shrink (s.stage_shrink _)
    · exact h.shrink (s.refuse_shrink _)
  classTest s m h := by
    unfold State.takeClassTest
    split
    · exact h.shrink (s.stage_shrink _)
    · exact h.shrink (s.refuse_shrink _)
  geometry s m h := by
    unfold State.takeGeometry
    split
    · exact h.shrink (s.stage_shrink _)
    · exact h.shrink (s.refuse_shrink _)
  decision s m h := by
    unfold State.takeDecision
    split
    · exact h.shrink (s.stage_shrink _)
    · exact h.shrink (s.refuse_shrink _)
  traySet s m h := by
    unfold State.takeTraySet
    repeat' split
    all_goals first | exact h.shrink (s.refuse_shrink _) | exact h.shrink (.of_same rfl rfl rfl rfl)
  run _ h := h.directRun
  drain _ h := h.directDrain
  stby _ h := h.directStby
  restart s h := by
    unfold State.directRestart
    split
    · exact h.shrink (.of_same rfl rfl rfl rfl)
    · exact h.shrink (s.refuse_shrink _)
  tclose _ h := h.shrink (.of_same (by simp) (by simp) (by simp) (by simp))
  drainEnd _ h := h.drainEndIfDue
  settle _ h := h.shrink (.of_same (by simp) (by simp) (by simp) (by simp))
  join s h := h.shrink s.joinTrayRecord_shrink
  image s src sd base r h := by
    unfold State.offerImage
    split
    · rename_i hm
      exact (orderly_keptByInspection.takeImageWrite sd base r ⟨hm.1, h⟩).2
    · exact h
  exit _ gate base r h := orderly_keptByExits.takeExitWrite gate base r h
  print s printer base r h := h.shrink (s.takeStatusWrite_answer printer base r).shrink
  dispatch gate base r q h := h.shrink (State.takeDispatchRead_answer gate base r q).shrink
  printRead printer base r q h := h.shrink (State.takePrintRead_answer printer base r q).shrink
  injected s h := h.shrink s.issueInjected_answer.shrink
  answered s tag st h := h.shrink (s.recordAnswered_shrink tag st)
  reset s straps _ := (State.orderly_resetWith straps).shrink (.of_same rfl rfl rfl rfl)

/-- Settles O6: each block keeps the two laws together, so every step does. -/
theorem stepKeepsTableLaw : Obligations.StepKeepsTableLaw := fun _ _ ht hq e => orderly_kept.step ⟨ht, hq⟩ e

/-! ### Pin reset -/

theorem LaneUnit.down_bounded : LaneUnit.down.Bounded := ⟨by decide, fun _ => rfl⟩

theorem State.pathLaw_resetWith (straps : BitVec 16) : (State.resetWith straps).PathLaw where
  img := Nat.zero_le 16
  ctl := Nat.zero_le 8
  blk := Nat.zero_le 8
  issued := Nat.zero_le 128
  guard := Nat.zero_le 16
  lanes l := by
    cases l
    · exact LaneUnit.down_bounded
    · exact LaneUnit.down_bounded
    · exact ⟨Nat.zero_le 63, fun _ => rfl⟩
    · exact LaneUnit.down_bounded
  outstanding l := by cases l <;> rfl

theorem State.linkLaw_resetWith (straps : BitVec 16) : (State.resetWith straps).LinkLaw where
  tags := .nil
  low _ h := nomatch h
  source _ h := nomatch h
  links := rfl

theorem State.generationLaw_resetWith (straps : BitVec 16) : (State.resetWith straps).GenerationLaw where
  held _ h := (List.not_mem_nil h).elim
  few := Nat.zero_le 1
  standby _ := rfl

theorem State.misprintLaw_resetWith (straps : BitVec 16) : (State.resetWith straps).MisprintLaw :=
  ⟨Nat.zero_le 2, fun h => absurd h (Nat.zero_ne_add_one 1)⟩

theorem State.reportLaw_resetWith (straps : BitVec 16) : (State.resetWith straps).ReportLaw where
  room := Nat.zero_le 8
  order := rfl
  banks := rfl
  pending h := absurd rfl h

theorem State.holdingLaw_resetWith (straps : BitVec 16) : (State.resetWith straps).HoldingLaw where
  one := .nil
  full _ h := (List.not_mem_nil h).elim

theorem State.placementLaw_resetWith (straps : BitVec 16) : (State.resetWith straps).PlacementLaw where
  running h := absurd rfl h
  map _ h := nomatch h
  sources _ h := nomatch h

/-- Settles O5, law by law: every list is empty and every setting has its default. -/
theorem pinResetObeysEveryLaw : Obligations.PinResetObeysEveryLaw := fun straps =>
  ⟨(State.orderly_resetWith straps).1, State.generationLaw_resetWith straps, (State.orderly_resetWith straps).2,
    State.misprintLaw_resetWith straps, fun _ => rfl, State.reportLaw_resetWith straps, State.linkLaw_resetWith straps,
    State.pathLaw_resetWith straps, State.holdingLaw_resetWith straps, State.settingsLaw_of_reset rfl rfl,
    State.placementLaw_resetWith straps⟩

end Sys2Proof.Machine
end

section
/-! PROOF. O34: RUN, CLRS, the cancel directives and RESTART (R81, R164, R108 to R110, R163, R147). -/

namespace Sys2Proof.Machine

/-- R81: RUN in STANDBY, by the first precondition that fails. -/
theorem State.directRun_standby {s : State} (h : s.mode = .standby) : s.directRun =
    if s.runRefusal = .none then
      { s with mode := .run, parsers := { face := .waitHeader, back := .waitHeader }
               zones := { face := ZoneWork.idle, back := ZoneWork.idle } }
    else { s with status := { s.status with flags := s.status.flags ||| 8#14, runReason := s.runRefusal } } := by
  unfold State.directRun
  split
  · rename_i hm
    rw [h] at hm
    cases hm
  · rename_i hm
    rw [h] at hm
    cases hm
  · split
    · rename_i hr
      rw [if_pos hr]
      rfl
    · rename_i hr
      rw [if_neg hr]
      rfl

/-- R147, R182: the links of injected writes are cleared. -/
theorem Issued.unlink_eq (i : Issued) :
    i.unlink = { i with link := if i.link = .forwarded then .forwarded else .injected false } := by
  cases i with
  | mk lane source tag kind plan link => cases link <;> rfl

/-- R163, R147: RESTART in STANDBY. -/
theorem State.directRestart_standby {s : State} (h : s.mode = .standby) : s.directRestart = s.restarted :=
  if_pos h

/-- Settles O34: RUN by mode and first failing precondition, the others by their definitions. -/
theorem runClrsCancelAndRestartDirectives : Obligations.RunClrsCancelAndRestartDirectives := by
  refine ⟨fun s => ?_, fun s => ⟨rfl, rfl, rfl, rfl⟩, fun s hs => ?_, fun s hs => ?_⟩
  · refine congrArg Host.Outcome.next ?_
    cases hm : s.mode with
    | run => simp [State.directRun, hm]
    | drain => simp [State.directRun, hm]
    | standby =>
      rw [State.directRun_standby hm]
      unfold State.runRefusal
      by_cases hmap : s.setup.map = none
      · simp [hmap, hm]
      · by_cases hsrc : s.setup.sources = none
        · simp [hmap, hsrc, hm]
        · by_cases hup : s.path.lanes.img.state = .up ∧ s.path.lanes.ctl.state = .up ∧ s.path.lanes.rpt.state = .up ∧
            s.path.lanes.blk.state = .up
          · obtain ⟨hi, hc, hr, hb⟩ := hup
            simp [hmap, hsrc, hi, hc, hr, hb, State.lane, PerLane.get]
          · have hn : (s.lane .img).state ≠ .up ∨ (s.lane .ctl).state ≠ .up ∨ (s.lane .rpt).state ≠ .up ∨
                (s.lane .blk).state ≠ .up := by
              simp only [State.lane, PerLane.get]
              tauto
            simp only [hmap, hsrc, hup, hn, hm, if_false, if_true, reduceCtorEq]
  · refine congrArg Host.Outcome.next ((State.directRestart_standby hs).trans ?_)
    simp only [State.restarted, funext Issued.unlink_eq]
    rfl
  · refine congrArg Host.Outcome.next ((if_neg hs).trans ?_)
    exact s.refuse_eq_refusedFor (by decide)

end Sys2Proof.Machine
end

section
/-! SUPPORT. The windows of a placed memory map lie apart, so that a request in one of them is that block's alone; image
writes and exit words as what their blocks do with them (R1, R148, R160, R168, R171). -/

namespace Sys2Proof.Machine

/-! ### Windows that lie apart (R160) -/

theorem spansApart_iff (l : List (Nat × Nat)) :
    spansApart l = true ↔ l.Pairwise fun a b => spansMeet a b = false := by
  induction l with
  | nil => simp [spansApart]
  | cons a l ih => simp [spansApart, ih]

theorem spansMeet_comm (a b : Nat × Nat) : spansMeet a b = spansMeet b a := Bool.and_comm _ _

/-- The setup area and the nine extents of a memory map, in the order R160 names them. -/
def MemoryMap.spans (straps : BitVec 16) (m : MemoryMap) : List (Nat × Nat) :=
  (setupBase straps, setupSize) :: m.extents.map fun x => (x.1, x.2.1)

/-- R160: in a placed map no two spans share a byte. -/
theorem MemoryMap.apart {m : MemoryMap} {straps : BitVec 16} (h : m.placed straps = true) {i j : Nat} (hj : j < 10)
    (hij : i < j) : spansMeet ((m.spans straps)[i]'(hij.trans hj)) ((m.spans straps)[j]'hj) = false := by
  have hs : spansApart (m.spans straps) = true := (Bool.and_eq_true_iff.mp h).2
  exact List.pairwise_iff_getElem.mp ((spansApart_iff _).mp hs) i j (hij.trans hj) hj hij

/-- A request lies in a span, in all its bytes, of which there is one at least. -/
def reqWithin (r : Request) (a : Nat × Nat) : Prop := a.1 ≤ reqLo r ∧ reqHi r ≤ a.1 + a.2 ∧ reqLo r < reqHi r

theorem reqWithin_of_inside {r : Request} {base size : Nat} (h : reqInside r base size = true) (hb : 1 ≤ r.beats) :
    reqWithin r (base, size) := by
  simp only [reqInside, Bool.and_eq_true, decide_eq_true_eq] at h
  exact ⟨h.1, h.2, by unfold reqLo reqHi; omega⟩

theorem reqWithin.touches {r : Request} {a : Nat × Nat} (h : reqWithin r a) : reqTouches r a.1 a.2 = true := by
  obtain ⟨hlo, hhi, hne⟩ := h
  simp only [reqTouches, Bool.and_eq_true, decide_eq_true_eq]
  omega

theorem reqWithin.not_touches {r : Request} {a b : Nat × Nat} (h : reqWithin r a) (hab : spansMeet a b = false) :
    reqTouches r b.1 b.2 = false := by
  obtain ⟨hlo, hhi, hne⟩ := h
  simp only [spansMeet, Bool.and_eq_false_iff, decide_eq_false_iff_not] at hab
  simp only [reqTouches, Bool.and_eq_false_iff, decide_eq_false_iff_not]
  omega

theorem reqWithin.not_inside {r : Request} {a b : Nat × Nat} (h : reqWithin r a) (hab : spansMeet a b = false) :
    reqInside r b.1 b.2 = false := by
  have hlt := h.2.2
  have ht := h.not_touches hab
  simp only [reqTouches, Bool.and_eq_false_iff, decide_eq_false_iff_not] at ht
  simp only [reqInside, Bool.and_eq_false_iff, decide_eq_false_iff_not]
  omega

theorem reqOutside_eq_false {r : Request} (hc : reqCrosses r = false) (hs : r.source ≠ 15) : reqOutside r = false := by
  simpa [reqOutside, hc] using hs

/-! ### One part (R171) -/

/-- R171: an accepted request that falls into one part alone is queued, and that part is taken. -/
theorem State.present_part {s : State} {r : Request} {p : Nat × Part} (hr : s.AcceptsAtOnce r) (hk : r.kind = .write)
    (hp : partsOf s.setup r = [p]) :
    s.present r = (State.takePart State.settleHeld s.setup.sources r (s.queued r [], []) p).1 := by
  rw [State.present_accepted hr, State.arrive, hk]
  simp only [State.offer, State.enqueue_setup, hp, orderParts, insertPart, List.foldl_cons, List.foldl_nil]
  rfl

/-! ### Image writes (R1) -/

section ImageWrite

variable {s : State} {sd : Side} {ring : Ring} {r : Request}

theorem State.ImageWriteAccepted.kind (h : s.ImageWriteAccepted sd ring r) : r.kind = .write := by
  have := h.form
  simp only [Request.wellFormedAs, Bool.and_eq_true, decide_eq_true_eq] at this
  exact this.2

theorem State.ImageWriteAccepted.beats_pos (h : s.ImageWriteAccepted sd ring r) : 1 ≤ r.beats := by
  have := h.form
  simp only [Request.wellFormedAs, Request.wellFormed, Bool.and_eq_true, decide_eq_true_eq] at this
  exact this.1.1.1

theorem State.ImageWriteAccepted.source_ne (h : s.ImageWriteAccepted sd ring r) : r.source ≠ 15 := by
  obtain ⟨t, ht, hr⟩ := h.head
  have hle := (h.placed.sources t ht).1 sd
  intro h15
  rw [hr, h15] at hle
  exact absurd hle (by decide)

/-- R1, R160: an image write falls into its ring alone. -/
theorem State.ImageWriteAccepted.partsOf (h : s.ImageWriteAccepted sd ring r) :
    partsOf s.setup r = [(ring.base, .image sd)] := by
  obtain ⟨m, hm, rfl⟩ := h.map
  have hplaced := (h.placed.map m hm).2
  have hin := reqWithin_of_inside h.inside h.beats_pos
  have ho := reqOutside_eq_false h.page h.source_ne
  unfold Machine.partsOf
  simp only [ho, h.kind, hm, Bool.false_eq_true, if_false]
  cases sd
  · have h0 := hin.not_touches (spansMeet_comm _ _ ▸ MemoryMap.apart hplaced (i := 0) (j := 1) (by decide) (by decide))
    have h2 := hin.not_inside (MemoryMap.apart hplaced (i := 1) (j := 2) (by decide) (by decide))
    have h5 := hin.not_touches (MemoryMap.apart hplaced (i := 1) (j := 5) (by decide) (by decide))
    have h6 := hin.not_touches (MemoryMap.apart hplaced (i := 1) (j := 6) (by decide) (by decide))
    have h1 := h.inside
    simp only [MemoryMap.spans, MemoryMap.extents, PerSide.get, List.map_cons, List.map_nil, List.getElem_cons_zero,
      List.getElem_cons_succ] at h0 h1 h2 h5 h6
    simp [partIf, PerSide.get, h0, h1, h2, h5, h6]
  · have h0 := hin.not_touches (spansMeet_comm _ _ ▸ MemoryMap.apart hplaced (i := 0) (j := 2) (by decide) (by decide))
    have h1 := hin.not_inside (spansMeet_comm _ _ ▸ MemoryMap.apart hplaced (i := 1) (j := 2) (by decide) (by decide))
    have h5 := hin.not_touches (MemoryMap.apart hplaced (i := 2) (j := 5) (by decide) (by decide))
    have h6 := hin.not_touches (MemoryMap.apart hplaced (i := 2) (j := 6) (by decide) (by decide))
    have h2 := h.inside
    simp only [MemoryMap.spans, MemoryMap.extents, PerSide.get, List.map_cons, List.map_nil, List.getElem_cons_zero,
      List.getElem_cons_succ] at h0 h1 h2 h5 h6
    simp [partIf, PerSide.get, h0, h1, h2, h5, h6]

/-- R1, R171: an accepted image write is queued, and its side's parser takes it. -/
theorem State.ImageWriteAccepted.exec (h : s.ImageWriteAccepted sd ring r) :
    exec (.imageWrite r) s = .next ((s.queued r []).takeImageWrite sd ring.base r) := by
  obtain ⟨t, ht, hr⟩ := h.head
  refine congrArg Host.Outcome.next ((State.present_part h.room h.kind h.partsOf).trans ?_)
  have hhead : headId s.setup.sources sd = some r.source.toNat := by simp [headId, ht, hr]
  exact if_pos ⟨h.mode, hhead⟩

/-! ### Where an image write lies in its slot (R1) -/

theorem State.ImageWriteAccepted.base_le (h : s.ImageWriteAccepted sd ring r) : ring.base ≤ reqLo r :=
  (reqWithin_of_inside h.inside h.beats_pos).1

/-- The address at which the slot of a request begins. -/
def ringSlotBase (ring : Ring) (r : Request) : Nat := ring.base + 4096 * ringSlot ring r

theorem ringSlotBase_add_ringOffset (h : ring.base ≤ reqLo r) : ringSlotBase ring r + ringOffset ring r = reqLo r := by
  unfold ringSlotBase ringSlot ringOffset
  omega

/-- R5: a write that begins in the first beat of a slot is a header write; its other beats follow. -/
theorem State.takeImageWrite_header (h : ring.base ≤ reqLo r) (ho : ringOffset ring r < 8) :
    s.takeImageWrite sd ring.base r =
      ((beatOffsets r 0 (decide (ringOffset ring r % 8 = 0))).drop 2).foldl
        (State.takeBeat sd r (decide (ringOffset ring r % 8 = 0)) (ringSlotBase ring r))
        (s.headerWrite sd r (decide (ringOffset ring r % 8 = 0)) (ringSlotBase ring r) (ringSlot ring r)) := by
  have hoff : reqLo r - (ring.base + 4096 * ((reqLo r - ring.base) / 4096)) = ringOffset ring r := by
    unfold ringOffset
    omega
  have h0 : ringOffset ring r / 8 * 8 = 0 := by omega
  unfold State.takeImageWrite
  simp only [hoff, h0, if_true]
  rfl

/-- R13: any other write may fault a line in progress of another slot; then its beats follow. -/
theorem State.takeImageWrite_beats (h : ring.base ≤ reqLo r) (ho : 8 ≤ ringOffset ring r) :
    s.takeImageWrite sd ring.base r =
      (beatOffsets r (ringOffset ring r / 8 * 8) (decide (ringOffset ring r % 8 = 0))).foldl
        (State.takeBeat sd r (decide (ringOffset ring r % 8 = 0)) (ringSlotBase ring r))
        (s.faultStraySlot sd (ringSlot ring r)) := by
  have hoff : reqLo r - (ring.base + 4096 * ((reqLo r - ring.base) / 4096)) = ringOffset ring r := by
    unfold ringOffset
    omega
  have h0 : ringOffset ring r / 8 * 8 ≠ 0 := by omega
  unfold State.takeImageWrite
  simp only [hoff, h0, if_false]
  rfl

end ImageWrite

/-! ### Bytes of a WRITE -/

theorem writtenBytes_eq_none_iff (r : Request) (a n : Nat) :
    writtenBytes r a n = none ↔ ∃ i < n, writtenAt r (a + i) = none := by
  induction n generalizing a with
  | zero => simp [writtenBytes]
  | succ n ih =>
    constructor
    · intro h
      cases hb : writtenAt r a with
      | none => exact ⟨0, by omega, hb⟩
      | some b =>
        cases hbs : writtenBytes r (a + 1) n with
        | none =>
          obtain ⟨i, hi, h0⟩ := (ih (a + 1)).mp hbs
          exact ⟨i + 1, by omega, by rw [← h0]; congr 1; omega⟩
        | some bs => simp [writtenBytes, hb, hbs] at h
    · rintro ⟨i, hi, h0⟩
      cases i with
      | zero =>
        unfold writtenBytes
        rw [show writtenAt r a = none from h0]
      | succ i =>
        have : writtenBytes r (a + 1) n = none := (ih (a + 1)).mpr ⟨i, by omega, by rw [← h0]; congr 1; omega⟩
        unfold writtenBytes
        rw [this]
        split <;> simp_all

/-! ### Parsers that have no line in progress -/

/-- No line is in progress at a side. -/
def State.NoLine (s : State) (sd : Side) : Prop := ∀ ln, s.parsers.get sd ≠ .inLine ln

/-- A parser without a line in progress is as it was. -/
def ParserFrame (s t : State) : Prop := ∀ sd, s.NoLine sd → t.parsers.get sd = s.parsers.get sd

theorem ParserFrame.refl (s : State) : ParserFrame s s := fun _ _ => rfl

theorem ParserFrame.of_eq {s t : State} (h : t.parsers = s.parsers) : ParserFrame s t := fun _ _ => by rw [h]

theorem ParserFrame.noLine {s t : State} (h : ParserFrame s t) {sd : Side} (hs : s.NoLine sd) : t.NoLine sd :=
  fun ln => h sd hs ▸ hs ln

theorem ParserFrame.trans {s t u : State} (h : ParserFrame s t) (k : ParserFrame t u) : ParserFrame s u :=
  fun sd hs => (k sd (h.noLine hs)).trans (h sd hs)

theorem Parser.clearMark_of_noLine (p : Nat) {q : Parser} (h : ∀ ln, q ≠ .inLine ln) : q.clearMark p = q := by
  cases q with
  | inLine ln => exact absurd rfl (h ln)
  | waitHeader => rfl
  | skipping => rfl

theorem State.finishInspection_parser (s : State) (p : Nat) : ParserFrame s (s.finishInspection p) := fun sd hs => by
  simp only [State.finishInspection, State.releaseGenerations_parsers, State.modifyEntry_parsers, PerSide.get_map]
  exact Parser.clearMark_of_noLine p hs

theorem State.pieceFault_parser (s : State) (p : Nat) (f : PieceFault) : ParserFrame s (s.pieceFault p f) := by
  unfold State.pieceFault
  split
  · exact .refl s
  · simp only []
    split
    · exact (State.finishInspection_parser (s.modifyEntry p (Entry.takeFault f)) p).trans (.of_eq (by simp))
    · exact .of_eq rfl

theorem State.faultLimitCheck_parser (s : State) (p : Nat) : ParserFrame s (s.faultLimitCheck p) := by
  unfold State.faultLimitCheck
  split
  · exact .refl s
  · split
    · exact s.pieceFault_parser _ _
    · exact .refl s

@[simp] theorem State.leadingNotice_parsers (s : State) (sd : Side) (p : Nat) :
    (s.leadingNotice sd p).parsers = s.parsers := by
  unfold State.leadingNotice
  split <;> simp

theorem State.closedNotice_parser (s : State) (p : Nat) : ParserFrame s (s.closedNotice p) := by
  unfold State.closedNotice
  split
  · exact .refl s
  · split
    · exact ParserFrame.trans (.of_eq (by simp)) (State.finishInspection_parser _ p)
    · exact .refl s

@[simp] theorem State.completeLeading_parsers (s : State) (sd : Side) (p : Nat) (st : Settings) :
    (s.completeLeading sd p st).parsers = s.parsers := by
  simp [State.completeLeading]

@[simp] theorem State.handLine_parsers (s : State) (sd : Side) (p x extent : Nat) (b : Bool) :
    (s.handLine sd p x extent b).parsers = s.parsers := by
  unfold State.handLine
  split
  · rfl
  · simp only []
    repeat' split
    all_goals simp

theorem State.zoneClose_parser (s : State) (sd : Side) (p n : Nat) (st : Settings) :
    ParserFrame s (s.zoneClose sd p n st) := by
  refine ParserFrame.trans (.of_eq ?_) (State.closedNotice_parser _ p)
  simp only [State.setZone_parsers, State.modifyEntry_parsers]
  split <;> simp

theorem State.sideClose_parser (s : State) (sd : Side) (p x : Nat) : ParserFrame s (s.sideClose sd p x) := by
  unfold State.sideClose
  split
  · exact .refl s
  · split
    · simp only []
      split
      · exact ParserFrame.trans (.of_eq (by simp)) (State.zoneClose_parser _ _ _ _ _)
      · exact .of_eq rfl
    · exact .refl s

theorem State.closeIfTrail_parser (s : State) (sd : Side) (ln : Line) : ParserFrame s (s.closeIfTrail sd ln) := by
  unfold State.closeIfTrail
  split
  · exact s.sideClose_parser _ _ _
  · exact .refl s

theorem State.handFaulted_parser (s : State) (sd : Side) (p x extent : Nat) (running : Bool) :
    ParserFrame s (s.handFaulted sd p x extent running) := by
  unfold State.handFaulted
  split
  · exact ParserFrame.trans (.of_eq (by simp)) (State.faultLimitCheck_parser _ _)
  · exact .refl s

theorem State.noLine_setParser {s : State} {sd : Side} {p : Parser} (h : ∀ ln, p ≠ .inLine ln) :
    (s.setParser sd p).NoLine sd := fun ln => by simpa [State.setParser] using h ln

/-- R16: a fault leaves no line in progress. -/
theorem State.noLine_faultLine (s : State) (sd : Side) (ln : Line) : (s.faultLine sd ln).NoLine sd := by
  unfold State.faultLine
  simp only []
  refine (State.closeIfTrail_parser _ _ _).noLine ((State.handFaulted_parser _ _ _ _ _ _).noLine ?_)
  exact State.noLine_setParser (s := s.raise .lineFault) fun _ h => nomatch h

/-- R15: completion leaves no line in progress. -/
theorem State.noLine_completeLine (s : State) (sd : Side) (ln : Line) : (s.completeLine sd ln).NoLine sd := by
  have hw : (s.setParser sd .waitHeader).NoLine sd := State.noLine_setParser fun _ h => nomatch h
  unfold State.completeLine
  simp only []
  refine (State.closeIfTrail_parser _ _ _).noLine ?_
  split
  · exact (ParserFrame.of_eq (State.handLine_parsers _ _ _ _ _ _)).noLine hw
  · exact hw

/-- R14: with no line in progress a beat that is no header's is only forwarded. -/
theorem State.takeBeat_of_noLine {s : State} {sd : Side} (h : s.NoLine sd) (r : Request) (aligned : Bool)
    (slotBase b : Nat) : State.takeBeat sd r aligned slotBase s b = s := by
  unfold State.takeBeat
  split
  · rename_i ln hl
    exact absurd hl (h ln)
  · rfl

theorem State.foldl_takeBeat_of_noLine {s : State} {sd : Side} (h : s.NoLine sd) (r : Request) (aligned : Bool)
    (slotBase : Nat) (l : List Nat) : l.foldl (State.takeBeat sd r aligned slotBase) s = s := by
  induction l with
  | nil => rfl
  | cons b l ih => rw [List.foldl_cons, State.takeBeat_of_noLine h, ih]

theorem State.faultInLine_of_noLine {s : State} {sd : Side} (h : s.NoLine sd) : s.faultInLine sd = s := by
  unfold State.faultInLine
  split
  · rename_i ln hl
    exact absurd hl (h ln)
  · rfl

theorem State.faultInLine_inLine {s : State} {sd : Side} {ln : Line} (h : s.parsers.get sd = .inLine ln) :
    s.faultInLine sd = s.lineFaulted sd ln := by
  unfold State.faultInLine
  rw [h]
  exact s.faultLine_eq_lineFaulted sd ln

theorem State.faultStraySlot_of_noLine {s : State} {sd : Side} (h : s.NoLine sd) (slot : Nat) :
    s.faultStraySlot sd slot = s := by
  unfold State.faultStraySlot
  split
  · rename_i ln hl
    exact absurd hl (h ln)
  · rfl

theorem State.faultStraySlot_inLine {s : State} {sd : Side} {ln : Line} (h : s.parsers.get sd = .inLine ln) (slot : Nat) :
    s.faultStraySlot sd slot = if ln.slot ≠ slot then s.lineFaulted sd ln else s := by
  unfold State.faultStraySlot
  rw [h]
  simp only [s.faultLine_eq_lineFaulted sd ln]

theorem State.noLine_lineFaulted (s : State) (sd : Side) (ln : Line) : (s.lineFaulted sd ln).NoLine sd :=
  s.faultLine_eq_lineFaulted sd ln ▸ s.noLine_faultLine sd ln

end Sys2Proof.Machine
end

section
/-! PROOF. O36: only header writes reach the header check (R5, R13, R14, R16). -/

namespace Sys2Proof.Machine

section HeaderWrite

variable {s : State} {sd : Side} {ring : Ring} {r : Request}

/-- R5: a header write whose 16 bytes are not all enabled, or that is not beat-aligned, is UNREADABLE: it faults a line in
progress, sets LINE_FAULT and leaves the parser SKIPPING, so that its other beats are only forwarded. -/
theorem State.takeImageWrite_unreadable (h : ring.base ≤ reqLo r) (ho : ringOffset ring r < 8)
    (hu : ringOffset ring r % 8 ≠ 0 ∨ writtenBytes r (ringSlotBase ring r) 16 = none) :
    s.takeImageWrite sd ring.base r = ((s.faultInLine sd).skipped sd).flagged 4 := by
  have hw : ∀ slot, s.headerWrite sd r (decide (ringOffset ring r % 8 = 0)) (ringSlotBase ring r) slot =
      ((s.faultInLine sd).skipped sd).flagged 4 := by
    intro slot
    unfold State.headerWrite
    rcases hu with hu | hu
    · simp only [hu, decide_false, Bool.false_eq_true, if_false]
      rfl
    · simp only [hu, ite_self]
      rfl
  rw [State.takeImageWrite_header h ho, hw]
  refine State.foldl_takeBeat_of_noLine ?_ _ _ _ _
  exact State.noLine_setParser (s := s.faultInLine sd) (p := .skipping) fun _ h => nomatch h

/-- R5: a header write of two beats, all enabled, faults a line in progress and hands its header to the header check. -/
theorem State.takeImageWrite_readable (h : ring.base ≤ reqLo r) (ho : ringOffset ring r = 0) (hb : r.beats = 2)
    {bs : List Byte} (hw : writtenBytes r (reqLo r) 16 = some bs) :
    s.takeImageWrite sd ring.base r = (s.faultInLine sd).takeHeader sd (ringSlot ring r) (Header.ofBytes bs) := by
  have hbase : ringSlotBase ring r = reqLo r := by
    have := ringSlotBase_add_ringOffset h
    omega
  have hbeats : (beatOffsets r 0 true).drop 2 = [] := by simp [beatOffsets, hb]
  rw [State.takeImageWrite_header h (by omega)]
  simp only [ho, Nat.zero_mod, decide_true, hbeats, List.foldl_nil]
  unfold State.headerWrite
  simp only [hbase, if_true, hw]

/-- R13: a write past the header of another slot than that of the line in progress faults it, and does nothing else. -/
theorem State.takeImageWrite_stray (h : ring.base ≤ reqLo r) (ho : 8 ≤ ringOffset ring r) {ln : Line}
    (hl : s.parsers.get sd = .inLine ln) (hs : ln.slot ≠ ringSlot ring r) :
    s.takeImageWrite sd ring.base r = s.lineFaulted sd ln := by
  rw [State.takeImageWrite_beats h ho, State.faultStraySlot_inLine hl, if_pos hs]
  exact State.foldl_takeBeat_of_noLine (s.noLine_lineFaulted sd ln) _ _ _ _

/-- R14: with no line in progress a write past the header is only forwarded. -/
theorem State.takeImageWrite_noLine (h : ring.base ≤ reqLo r) (ho : 8 ≤ ringOffset ring r) (hn : s.NoLine sd) :
    s.takeImageWrite sd ring.base r = s := by
  rw [State.takeImageWrite_beats h ho, State.faultStraySlot_of_noLine hn]
  exact State.foldl_takeBeat_of_noLine hn _ _ _ _

/-- The 16 bytes of a header that are not all enabled. -/
theorem header_unreadable (h : ring.base ≤ reqLo r) (ho : ringOffset ring r = 0)
    (hu : ∃ i : Fin 16, writtenAt r (reqLo r + i.val) = none) : writtenBytes r (ringSlotBase ring r) 16 = none := by
  obtain ⟨i, hi⟩ := hu
  have hbase : ringSlotBase ring r = reqLo r := by
    have := ringSlotBase_add_ringOffset h
    omega
  exact (writtenBytes_eq_none_iff _ _ _).mpr ⟨i.val, i.isLt, hbase ▸ hi⟩

end HeaderWrite

/-- Settles O36: by where the write lies in its slot, with and without a line in progress. -/
theorem onlyHeadersStartALine : Obligations.OnlyHeadersStartALine := by
  intro s sd ring r h q slot
  have hb := h.base_le
  have exec {t : State} (e : q.takeImageWrite sd ring.base r = t) : exec (.imageWrite r) s = .next t :=
    h.exec.trans (congrArg _ e)
  constructor
  · intro hn
    have hq : q.NoLine sd := hn
    refine ⟨fun ho => exec (State.takeImageWrite_noLine hb ho hq), fun ho hu => exec ?_, fun bs ho h2 hw => exec ?_⟩
    · rw [State.takeImageWrite_unreadable hb (by omega) (.inr (header_unreadable hb ho hu)),
        State.faultInLine_of_noLine hq]
      rfl
    · rw [State.takeImageWrite_readable hb ho h2 hw, State.faultInLine_of_noLine hq]
  · intro ln hl
    have hq : q.parsers.get sd = .inLine ln := hl
    refine ⟨fun ho hs => exec (State.takeImageWrite_stray hb ho hq hs), fun ho hu => exec ?_, fun bs ho h2 hw => exec ?_⟩
    · rw [State.takeImageWrite_unreadable hb (by omega) (.inr (header_unreadable hb ho hu)), State.faultInLine_inLine hq]
    · rw [State.takeImageWrite_readable hb ho h2 hw, State.faultInLine_inLine hq]

end Sys2Proof.Machine
end

section
/-! PROOF. O41: the beats of the line in progress (R2, R12 to R16, R23, R31). -/

namespace Sys2Proof.Machine

@[simp] theorem PerSide.set_set {α : Type} (p : PerSide α) (sd : Side) (v w : α) : (p.set sd v).set sd w = p.set sd w := by
  cases sd <;> rfl

@[simp] theorem State.parsers_setParser (s : State) (sd : Side) (p : Parser) : (s.setParser sd p).parsers.get sd = p :=
  PerSide.get_set_same _ _ _

@[simp] theorem State.setParser_setParser (s : State) (sd : Side) (p q : Parser) :
    (s.setParser sd p).setParser sd q = s.setParser sd q := by
  simp [State.setParser]

/-! ### One sample -/

/-- R12: what a sample in order does to the side's zone work: handed on an inspected line, absorbed on another. -/
def State.sampled (sd : Side) (ln : Line) (w : Nat) (s : State) : State :=
  if ln.inspecting then s.handSample sd ln w else s

theorem State.sampled_absorbed {ln : Line} (h : ln.inspecting = false) (s : State) (sd : Side) (w : Nat) :
    s.sampled sd ln w = s := by
  simp [State.sampled, h]

theorem State.sampled_handed {s : State} {ln : Line} {e : Entry} (h : ln.inspecting = true)
    (he : s.entry? ln.piece = some e) (sd : Side) (w : Nat) :
    s.sampled sd ln w = { s with zones := s.zones.set sd ((s.zones.get sd).takeSample (s.settingsOf e.generation) ln.piece
      ln.x ln.top ln.bottom ln.next (((s.settingsOf e.generation).correction.get sd).sample w)) } := by
  rw [State.sampled, if_pos h, State.handSample, he]
  rfl

theorem State.sampled_setParser (s : State) (sd : Side) (p : Parser) (ln : Line) (w : Nat) :
    (s.setParser sd p).sampled sd ln w = (s.sampled sd ln w).setParser sd p := by
  have he : (s.setParser sd p).entry? ln.piece = s.entry? ln.piece := rfl
  unfold State.sampled
  split
  · unfold State.handSample
    rw [he]
    split <;> rfl
  · rfl

/-- R15: the end of a line looks at nothing of the line that its samples change. -/
theorem State.lineEnded_setParser (s : State) (sd : Side) (p : Parser) (ln : Line) (n : Nat) :
    (s.setParser sd p).lineEnded sd { ln with next := n } = s.lineEnded sd ln := by
  have h : ({ s.setParser sd p with parsers := (s.setParser sd p).parsers.set sd .waitHeader } : State) =
      { s with parsers := s.parsers.set sd .waitHeader } := s.setParser_setParser sd p .waitHeader
  unfold State.lineEnded
  rw [h]

/-- R12: a sample in order short of the line's end. -/
theorem State.takeSample_short {s : State} {sd : Side} {ln : Line} (hl : s.parsers.get sd = .inLine ln)
    (hk : ln.next + 1 ≠ ln.samples) (w : Nat) :
    State.takeSample sd s w = (s.sampled sd ln w).setParser sd (.inLine { ln with next := ln.next + 1 }) := by
  unfold State.takeSample
  rw [hl]
  simp only [if_neg hk]
  rfl

/-- R12, R15: the last sample of a line. -/
theorem State.takeSample_last {s : State} {sd : Side} {ln : Line} (hl : s.parsers.get sd = .inLine ln)
    (hk : ln.next + 1 = ln.samples) (w : Nat) : State.takeSample sd s w = (s.sampled sd ln w).lineEnded sd ln := by
  unfold State.takeSample
  rw [hl]
  simp only [if_pos hk, State.completeLine_eq_lineEnded]
  rfl

/-- R12: the two samples of a beat. -/
theorem State.takeSample_pair {s : State} {sd : Side} {ln : Line} (hl : s.parsers.get sd = .inLine ln)
    (hk : ln.next + 1 < ln.samples) (w w' : Nat) :
    State.takeSample sd (State.takeSample sd s w) w' =
      if ln.next + 2 = ln.samples then
        ((s.sampled sd ln w).sampled sd { ln with next := ln.next + 1 } w').lineEnded sd ln
      else ((s.sampled sd ln w).sampled sd { ln with next := ln.next + 1 } w').setParser sd
        (.inLine { ln with next := ln.next + 2 }) := by
  rw [State.takeSample_short hl (by omega)]
  split
  · rename_i hend
    rw [State.takeSample_last (State.parsers_setParser _ _ _) hend, State.sampled_setParser, State.lineEnded_setParser]
  · rename_i hend
    rw [State.takeSample_short (State.parsers_setParser _ _ _) hend, State.sampled_setParser, State.setParser_setParser]

/-! ### One beat -/

section Beat

variable {s : State} {sd : Side} {r : Request} {slotBase b : Nat} {ln : Line}

/-- R13: a beat of the header region faults the line. -/
theorem State.takeBeat_header (hl : s.parsers.get sd = .inLine ln) (hb : b < 16) (aligned : Bool) :
    State.takeBeat sd r aligned slotBase s b = s.lineFaulted sd ln := by
  unfold State.takeBeat
  rw [hl]
  simp only [if_pos hb, s.faultLine_eq_lineFaulted sd ln]

/-- R14: a beat beyond the sample region is only forwarded. -/
theorem State.takeBeat_beyond (hl : s.parsers.get sd = .inLine ln) (h16 : 16 ≤ b) (hb : 16 + 4 * ln.samples ≤ b)
    (aligned : Bool) : State.takeBeat sd r aligned slotBase s b = s := by
  unfold State.takeBeat
  rw [hl]
  simp only [if_neg (show ¬b < 16 by omega), if_pos hb]

/-- R13, R16: a beat of the sample region out of order, or not full, faults the line. -/
theorem State.takeBeat_faulted (hl : s.parsers.get sd = .inLine ln) (h16 : 16 ≤ b) (hb : b < 16 + 4 * ln.samples)
    {aligned : Bool} (hf : b ≠ 16 + 4 * ln.next ∨ beatSamples r aligned ln.samples b (slotBase + b) = none) :
    State.takeBeat sd r aligned slotBase s b = s.lineFaulted sd ln := by
  unfold State.takeBeat
  rw [hl]
  simp only [if_neg (show ¬b < 16 by omega), if_neg (show ¬16 + 4 * ln.samples ≤ b by omega),
    s.faultLine_eq_lineFaulted sd ln]
  split
  · rw [hf.resolve_left fun h => h ‹_›]
  · rfl

/-- R12: a beat in order and full gives its samples. -/
theorem State.takeBeat_inOrder (hl : s.parsers.get sd = .inLine ln) (hb : b = 16 + 4 * ln.next)
    (hk : ln.next < ln.samples) {aligned : Bool} {ws : List Nat}
    (hw : beatSamples r aligned ln.samples b (slotBase + b) = some ws) :
    State.takeBeat sd r aligned slotBase s b = ws.foldl (State.takeSample sd) s := by
  unfold State.takeBeat
  rw [hl]
  simp only [if_neg (show ¬b < 16 by omega), if_neg (show ¬16 + 4 * ln.samples ≤ b by omega), if_pos hb, hw]

end Beat

/-- R2: the samples of a full beat of two. -/
theorem beatSamples_pair (r : Request) {S k : Nat} (h : k + 1 < S) (a : Nat) :
    beatSamples r true S (16 + 4 * k) a = (writtenBytes r a 8).map fun bs => [word bs 0, word bs 4] := by
  have hk : (16 + 4 * k - 16) / 4 + 1 < S := by omega
  simp only [beatSamples, if_pos hk, if_true]

/-- R2: the last sample of an odd number stands alone in its beat. -/
theorem beatSamples_single (r : Request) {S k : Nat} (h : k + 1 = S) (a : Nat) :
    beatSamples r true S (16 + 4 * k) a = (writtenBytes r a 4).map fun bs => [word bs 0] := by
  have hk : ¬(16 + 4 * k - 16) / 4 + 1 < S := by omega
  simp only [beatSamples, if_neg hk, if_true]
  rfl

/-- R2, R13: a write of one beat to the slot of the line in progress is that beat. -/
theorem State.takeImageWrite_beat {s : State} {sd : Side} {ring : Ring} {r : Request} {ln : Line}
    (hb : ring.base ≤ reqLo r) (hl : s.parsers.get sd = .inLine ln) (hs : ringSlot ring r = ln.slot) (h1 : r.beats = 1)
    (h8 : ringOffset ring r % 8 = 0) (ho : 8 ≤ ringOffset ring r) :
    s.takeImageWrite sd ring.base r = State.takeBeat sd r true (ringSlotBase ring r) s (ringOffset ring r) := by
  have hbeats : beatOffsets r (ringOffset ring r / 8 * 8) true = [ringOffset ring r] := by
    have : ringOffset ring r / 8 * 8 = ringOffset ring r := by omega
    simp [beatOffsets, h1, this]
  rw [State.takeImageWrite_beats hb ho, State.faultStraySlot_inLine hl, if_neg (by simp [hs])]
  simp only [h8, decide_true, hbeats, List.foldl_cons, List.foldl_nil]

/-- Settles O41: by where the beat lies, and whether it is in order and full. -/
theorem sampleBeatsAdvanceEndOrFaultTheLine : Obligations.SampleBeatsAdvanceEndOrFaultTheLine := by
  intro s sd ring r ln h hl hs h1 h8 q o k moved handed
  have hlo := h.base_le
  have haddr : ringSlotBase ring r + ringOffset ring r = reqLo r := ringSlotBase_add_ringOffset hlo
  have hq : q.parsers.get sd = .inLine ln := hl
  have exec {t : State} (ho : 8 ≤ o) (e : State.takeBeat sd r true (ringSlotBase ring r) q o = t) :
      exec (.imageWrite r) s = .next t :=
    h.exec.trans (congrArg _ ((State.takeImageWrite_beat hlo hq hs h1 h8 ho).trans e))
  refine ⟨fun bs ho hk hw => ?_, fun bs ho hk hw => ?_, fun hf => ?_, fun h16 hbeyond => ?_⟩
  · have hsamples : beatSamples r true ln.samples o (ringSlotBase ring r + o) = some [word bs 0, word bs 4] := by
      rw [haddr, ho, beatSamples_pair r hk, hw]
      rfl
    have hbeat := (State.takeBeat_inOrder hq ho (by omega) hsamples).trans (State.takeSample_pair hq hk _ _)
    refine ⟨fun hi => ?_, fun e hi he => ?_⟩
    · rw [State.sampled_absorbed hi, State.sampled_absorbed (ln := { ln with next := ln.next + 1 }) hi] at hbeat
      exact ⟨fun hlt => exec (by omega) (hbeat.trans (if_neg (by omega))),
        fun hend => exec (by omega) (hbeat.trans (if_pos hend))⟩
    · rw [State.sampled_handed hi (show q.entry? ln.piece = some e from he),
        State.sampled_handed (ln := { ln with next := ln.next + 1 }) hi
          (show State.entry? { q with zones := _ } ln.piece = some e from he)] at hbeat
      simp only [PerSide.set_set, PerSide.get_set_same] at hbeat
      exact ⟨fun hlt => exec (by omega) (hbeat.trans (if_neg (by omega))),
        fun hend => exec (by omega) (hbeat.trans (if_pos hend))⟩
  · have hsamples : beatSamples r true ln.samples o (ringSlotBase ring r + o) = some [word bs 0] := by
      rw [haddr, ho, beatSamples_single r hk, hw]
      rfl
    have hbeat := (State.takeBeat_inOrder hq ho (by omega) hsamples).trans (State.takeSample_last hq hk _)
    refine ⟨fun hi => ?_, fun e hi he => ?_⟩
    · rw [State.sampled_absorbed hi] at hbeat
      exact exec (by omega) hbeat
    · rw [State.sampled_handed hi (show q.entry? ln.piece = some e from he)] at hbeat
      exact exec (by omega) hbeat
  · rcases hf with ho | ⟨h16, hlt, hf⟩
    · exact exec (by omega) (State.takeBeat_header hq (by omega) true)
    · refine exec (by omega) (State.takeBeat_faulted hq h16 hlt ?_)
      by_cases ho : o = 16 + 4 * k
      · right
        rw [haddr, ho]
        rcases hf with hf | ⟨hk, hw⟩ | ⟨hk, hw⟩
        · exact absurd ho hf
        · rw [beatSamples_pair r hk, hw]
          rfl
        · rw [beatSamples_single r hk, hw]
          rfl
      · exact .inl ho
  · exact exec (by omega) (State.takeBeat_beyond hq h16 hbeyond true)

end Sys2Proof.Machine
end

section
/-! PROOF. O55: samples corrected, judged and tallied (R23, R25 to R27, R30, R31). -/

namespace Sys2Proof

open Sys2Proof.Machine

/-- R154: an INSIDE or OUTSIDE comparison whose clamped limits are out of order is none. -/
theorem ComparisonRecord.comparison_eq_none {m : ComparisonRecord} (hm : m.mode = 2 ∨ m.mode = 3)
    (h : min m.hi.toNat 1023 < min m.lo.toNat 1023) : m.comparison = none := by
  have hmode : ∃ md, modeOfByte m.mode = some md ∧ (md = .inside ∨ md = .outside) := by
    rcases hm with hm | hm
    · exact ⟨.inside, by rw [hm]; rfl, .inl rfl⟩
    · exact ⟨.outside, by rw [hm]; rfl, .inr rfl⟩
  obtain ⟨md, hmd, hin⟩ := hmode
  unfold ComparisonRecord.comparison
  rw [hmd]
  cases channelOfByte m.channel with
  | none => rfl
  | some ch => exact if_pos ⟨hin, h⟩

end Sys2Proof

namespace Sys2Proof.Machine

/-! ### Comparisons (R25) -/

section Judge

variable {q : Comparison}

theorem Comparison.judge_above (h : q.mode = .above) (c : Nat) :
    q.judge c = if q.hi < c then .plain else .fails := by
  simp only [Comparison.judge, h]

theorem Comparison.judge_below (h : q.mode = .below) (c : Nat) :
    q.judge c = if c < q.lo then .plain else .fails := by
  simp only [Comparison.judge, h]

theorem Comparison.judge_inside (h : q.mode = .inside) (c : Nat) :
    q.judge c = if q.lo < c ∧ c < q.hi then .plain else .fails := by
  simp only [Comparison.judge, h]

theorem Comparison.judge_outside (h : q.mode = .outside) (c : Nat) :
    q.judge c = if c < q.lo then .underPass else if q.hi < c then .overPass else .fails := by
  simp only [Comparison.judge, h]

end Judge

/-- R25: how a comparison judges a value, mode by mode. -/
theorem Comparison.judge_spec (q : Comparison) (c : Nat) :
    (q.mode = .above → (q.judge c = .plain ↔ q.hi < c) ∧ (q.judge c = .fails ↔ c ≤ q.hi)) ∧
    (q.mode = .below → (q.judge c = .plain ↔ c < q.lo) ∧ (q.judge c = .fails ↔ q.lo ≤ c)) ∧
    (q.mode = .inside → (q.judge c = .plain ↔ q.lo < c ∧ c < q.hi) ∧ (q.judge c = .fails ↔ c ≤ q.lo ∨ q.hi ≤ c)) ∧
    (q.mode = .outside → q.lo ≤ q.hi → (q.judge c = .underPass ↔ c < q.lo) ∧ (q.judge c = .overPass ↔ q.hi < c) ∧
      (q.judge c = .fails ↔ q.lo ≤ c ∧ c ≤ q.hi)) ∧
    (q.lo = q.hi → q.mode = .inside → q.judge c = .fails) ∧
    (q.lo = q.hi → q.mode = .outside → (q.judge c = .fails ↔ c = q.lo)) := by
  refine ⟨fun h => ?_, fun h => ?_, fun h => ?_, fun h ho => ?_, fun he h => ?_, fun he h => ?_⟩
  · rw [Comparison.judge_above h]
    split <;> simp <;> omega
  · rw [Comparison.judge_below h]
    split <;> simp <;> omega
  · rw [Comparison.judge_inside h]
    split <;> simp <;> omega
  · rw [Comparison.judge_outside h]
    split
    · simp
      omega
    · split <;> simp <;> omega
  · rw [Comparison.judge_inside h, if_neg (by omega)]
  · rw [Comparison.judge_outside h]
    split
    · simp
      omega
    · split <;> simp <;> omega

/-! ### Correction (R23) -/

theorem ChannelCorrection.correct_spec (q : ChannelCorrection) (raw : Nat) :
    q.correct raw = min 1023 ((raw - q.black) * q.gain / 256) ∧ q.correct raw ≤ 1023 ∧
      (q.gain = 0 → q.correct raw = 0) ∧ (raw ≤ q.black → q.correct raw = 0) ∧
      (q.black = 0 → q.gain = 256 → raw ≤ 1023 → q.correct raw = raw) := by
  refine ⟨rfl, Nat.min_le_left _ _, fun hg => ?_, fun hb => ?_, fun hb hg hr => ?_⟩
  · simp [ChannelCorrection.correct, hg]
  · simp [ChannelCorrection.correct, Nat.sub_eq_zero_of_le hb]
  · simp [ChannelCorrection.correct, hb, hg, hr]

theorem Correction.sample_eq (q : Correction) (w : Nat) : q.sample w =
    { v := q.v.correct (w % 1024), r := q.r.correct (w / 1024 % 1024), l := q.l.correct (w / 1048576 % 1024) } := by
  simp [Correction.sample, bits]

/-! ### Bands (R27) -/

theorem inBand_top_iff {zh t u y : Nat} (hz : 1 ≤ zh) :
    inBand zh t u y .top = true ↔ (t : Int) ≤ y ∧ (y : Int) ≤ min (u : Int) (t + zh - 1) := by
  simp only [inBand, Bool.and_eq_true, decide_eq_true_eq]
  omega

theorem inBand_bottom_iff {zh t u y : Nat} :
    inBand zh t u y .bottom = true ↔ max (t : Int) (u - zh + 1) ≤ y ∧ (y : Int) ≤ u := by
  simp only [inBand, Bool.and_eq_true, decide_eq_true_eq]
  omega

/-! ### Hits (R26) -/

theorem ClassTest.hit_iff (t : ClassTest) (c : Sample) :
    t.hit c = true ↔ t.primary.judge (c.get t.primary.channel) ≠ .fails ∧
      ∀ q, t.secondary = some q → q.judge (c.get q.channel) ≠ .fails := by
  unfold ClassTest.hit
  cases t.secondary <;> simp

theorem ClassTest.overHit_iff (t : ClassTest) (c : Sample) :
    t.overHit c = true ↔ t.hit c = true ∧ t.primary.judge (c.get t.primary.channel) = .overPass := by
  simp [ClassTest.overHit]

/-! ### Tallies (R30, R31) -/

/-- R31: one class of a band after a sample that lies in it. -/
theorem bandTake_get (tests : PerClass ClassTest) (c : Sample) (y : Nat) (b : PerClass Tally) (k : Cls) :
    (bandTake tests c y b).get k =
      if (tests.get k).hit c then (b.get k).take ((tests.get k).overHit c) y else b.get k :=
  PerClass.get_mapWith _ _ _

/-- R31: one band after a sample. -/
theorem LineTallies.take_get (st : Settings) (t u y : Nat) (c : Sample) (q : LineTallies) (ed : Edge) :
    (q.take st t u y c).get ed =
      if inBand st.geometry.zh t u y ed then bandTake st.tests c (y - t) (q.get ed) else q.get ed := by
  cases ed <;> rfl

theorem LineTallies.zero_get (ed : Edge) (k : Cls) : (LineTallies.zero.get ed).get k = Tally.zero := by
  cases ed <;> cases k <;> rfl

/-- R30: the set a sample is added to: zeroed first where it belongs to another line. -/
theorem ZoneWork.talliesOf_get (z : ZoneWork) (piece x : Nat) (ed : Edge) (k : Cls) :
    ((z.talliesOf piece x).get ed).get k =
      if z.line = some (piece, x) then (z.tallies.get ed).get k else Tally.zero := by
  unfold ZoneWork.talliesOf
  split
  · rfl
  · exact LineTallies.zero_get ed k

theorem ZoneWork.takeSample_tallies (st : Settings) (piece x t u y : Nat) (c : Sample) (z : ZoneWork) :
    (z.takeSample st piece x t u y c).tallies = (z.talliesOf piece x).take st t u y c := rfl

/-- Settles O55, part by part. -/
theorem samplesAreCorrectedJudgedAndTallied : Obligations.SamplesAreCorrectedJudgedAndTallied := by
  refine ⟨Comparison.judge_spec, fun m => ComparisonRecord.comparison_eq_none, ChannelCorrection.correct_spec,
    Correction.sample_eq, fun zh t u y hz _ => ⟨inBand_top_iff hz, inBand_bottom_iff⟩,
    fun t c => ⟨t.hit_iff c, t.overHit_iff c⟩, ?_⟩
  intro st piece x t u y c z ed k z' q
  have hq : ((z.talliesOf piece x).get ed).get k = q := z.talliesOf_get piece x ed k
  have hz : (z'.tallies.get ed).get k =
      ((if inBand st.geometry.zh t u y ed then bandTake st.tests c (y - t) ((z.talliesOf piece x).get ed)
        else (z.talliesOf piece x).get ed).get k) := by
    rw [ZoneWork.takeSample_tallies, LineTallies.take_get]
  refine ⟨rfl, rfl, rfl, rfl, fun hb hh => ?_, fun hn => ?_⟩
  · rw [hz, if_pos hb, bandTake_get, if_pos hh, hq]
    cases (st.tests.get k).overHit c <;> rfl
  · rw [hz]
    split
    · rename_i hb
      rw [bandTake_get, hn.resolve_left (by simp [hb]), hq]
      rfl
    · exact hq

end Sys2Proof.Machine
end

section
/-! PROOF. O45: a piece fault, and the fault limit check (R20, R21, R43, R64 to R66, R77). -/

namespace Sys2Proof.Machine

/-! ### The entry a change leaves -/

/-- A change of the entry that holds a number, seen through the number. -/
theorem State.entry?_modifyEntry_same {s : State} {p : Nat} {e : Entry} (h : s.entry? p = some e) {f : Entry → Entry}
    (hf : ∀ e, (f e).piece = e.piece) : (s.modifyEntry p f).entry? p = some (f e) := by
  have key : ∀ l : List Entry, (l.map fun e => if e.piece = p then f e else e).find? (fun e => e.piece == p) =
      (l.find? fun e => e.piece == p).map f := by
    intro l
    induction l with
    | nil => rfl
    | cons e es ih =>
      rw [List.map_cons, List.find?_cons, List.find?_cons, ih]
      by_cases he : e.piece = p
      · simp [he, hf]
      · have hb : (e.piece == p) = false := by simpa using he
        simp [he, hb]
  exact (key s.entries).trans (congrArg (Option.map f) h)

theorem State.entry?_finishInspection_same {s : State} {p : Nat} {e : Entry} (h : s.entry? p = some e) :
    (s.finishInspection p).entry? p = some { e with running := false } :=
  State.entry?_modifyEntry_same h (f := fun e => { e with running := false }) fun _ => rfl

theorem State.entry?_finishInspection_ne (s : State) {p q : Nat} (h : q ≠ p) :
    (s.finishInspection p).entry? q = s.entry? q :=
  s.entry?_modifyEntry_ne (fun e => { e with running := false }) h fun _ => rfl

theorem State.entry?_dropZoneWork_same {s : State} {p : Nat} {e : Entry} (h : s.entry? p = some e) :
    (s.dropZoneWork p).entry? p = some e.dropUndone :=
  State.entry?_modifyEntry_same (s := { s with zones := s.zones.map (ZoneWork.dropFor p) }) h fun _ => rfl

theorem State.entry?_dropZoneWork_ne (s : State) {p q : Nat} (h : q ≠ p) : (s.dropZoneWork p).entry? q = s.entry? q :=
  State.entry?_modifyEntry_ne { s with zones := s.zones.map (ZoneWork.dropFor p) } Entry.dropUndone h fun _ => rfl

/-! ### What a piece fault writes into an entry -/

theorem Entry.takeFault_piece (f : PieceFault) (e : Entry) : (e.takeFault f).piece = e.piece :=
  (e.takeFault_inspected f).piece

/-- R64, R65: the decision part and the remarks change, and nothing else. -/
theorem Entry.takeFault_eq (f : PieceFault) (e : Entry) :
    e.takeFault f = { e with decision := (e.takeFault f).decision, remarks := (e.takeFault f).remarks
                             zones := (e.takeFault f).zones } := by
  unfold Entry.takeFault
  split <;> rfl

/-- R64, R65: the fault decision before the dispatch answer, the decision that stands after it. -/
theorem Entry.takeFault_decision (f : PieceFault) (e : Entry) :
    (e.takeFault f).decision = if e.dispatch = none then some Decision.faulted else e.decision := by
  unfold Entry.takeFault
  cases e.dispatch <;> rfl

/-- R65, R66: the remarks a piece fault adds. -/
theorem Entry.takeFault_hasRemark (f : PieceFault) (e : Entry) (k : Remark) :
    (e.takeFault f).hasRemark k = true ↔
      e.hasRemark k = true ∨ k = f.remark ∨ (e.dispatch ≠ none ∧ k = .faultAfterDispatch) := by
  unfold Entry.takeFault
  cases hd : e.dispatch with
  | none =>
    simp only [Entry.hasRemark_addRemark, Bool.or_eq_true, decide_eq_true_eq, ne_eq, not_true_eq_false, false_and, or_false]
    exact or_comm
  | some a =>
    simp only [Entry.hasRemark_addRemark, Bool.or_eq_true, decide_eq_true_eq, ne_eq, reduceCtorEq, not_false_eq_true,
      true_and]
    tauto

/-- R43: what the drop of an entry's zone work leaves of a zone record. -/
theorem Entry.dropUndone_zone (e : Entry) (c : Corner) (k : Cls) :
    e.dropUndone.zone c k = if (e.zone c k).done = false then ZoneRecord.empty else e.zone c k := by
  simp only [Entry.zone, Entry.dropUndone, Fin.getElem_fin, Vector.getElem_map, PerClass.get_mapWith,
    ZoneRecord.dropUndone]
  by_cases hd : ((e.zones[c.val]).get k).done = true <;> simp [hd]

/-- R72, R43: the entry once its inspection has ended by a fault. -/
def Entry.faultEnded (f : PieceFault) (e : Entry) : Entry :=
  ({ e.takeFault f with running := false } : Entry).dropUndone

theorem Entry.faultEnded_eq (f : PieceFault) (e : Entry) : e.faultEnded f =
    { e with running := false, decision := (e.faultEnded f).decision, remarks := (e.faultEnded f).remarks
             zones := (e.faultEnded f).zones } := by
  unfold Entry.faultEnded Entry.takeFault
  split <;> rfl

/-! ### The state after a piece fault -/

section PieceFault

variable {s : State} {piece : Nat} {e : Entry}

theorem State.pieceFault_running (h : s.entry? piece = some e) (hr : e.running = true) (f : PieceFault) :
    s.pieceFault piece f = ((s.modifyEntry piece (Entry.takeFault f)).finishInspection piece).dropZoneWork piece := by
  rw [State.pieceFault, h]
  exact if_pos hr

theorem State.pieceFault_finished (h : s.entry? piece = some e) (hr : e.running = false) (f : PieceFault) :
    s.pieceFault piece f = s.modifyEntry piece (Entry.takeFault f) := by
  rw [State.pieceFault, h]
  exact if_neg (by simp [hr])

/-- The entry of the piece after a fault. -/
theorem State.entry?_pieceFault_same (h : s.entry? piece = some e) (f : PieceFault) :
    (s.pieceFault piece f).entry? piece = some (if e.running = true then e.faultEnded f else e.takeFault f) := by
  have ht := State.entry?_modifyEntry_same h (Entry.takeFault_piece f)
  cases hr : e.running with
  | false => simpa [State.pieceFault_finished h hr] using ht
  | true =>
    rw [State.pieceFault_running h hr, if_pos rfl]
    exact State.entry?_dropZoneWork_same (State.entry?_finishInspection_same ht)

/-- The entries of other pieces stand. -/
theorem State.entry?_pieceFault_ne (h : s.entry? piece = some e) (f : PieceFault) {p : Nat} (hp : p ≠ piece) :
    (s.pieceFault piece f).entry? p = s.entry? p := by
  have ht := s.entry?_modifyEntry_ne (Entry.takeFault f) hp (Entry.takeFault_piece f)
  cases hr : e.running with
  | false => rw [State.pieceFault_finished h hr, ht]
  | true => rw [State.pieceFault_running h hr, State.entry?_dropZoneWork_ne _ hp, State.entry?_finishInspection_ne _ hp, ht]

theorem State.pieceFault_status (s : State) (piece : Nat) (f : PieceFault) : (s.pieceFault piece f).status = s.status := by
  unfold State.pieceFault
  split
  · rfl
  · simp only []
    split <;> simp

/-- R43: the zone work of each side. -/
theorem State.pieceFault_zones (h : s.entry? piece = some e) (f : PieceFault) (sd : Side) :
    (s.pieceFault piece f).zones.get sd =
      if e.running = true ∧ (s.zones.get sd).owner = some piece then ZoneWork.idle else s.zones.get sd := by
  cases hr : e.running with
  | false => rw [State.pieceFault_finished h hr, if_neg (by simp)]; rfl
  | true =>
    rw [State.pieceFault_running h hr]
    simp only [State.dropZoneWork, State.modifyEntry_zones, State.finishInspection_zones, PerSide.get_map,
      ZoneWork.dropFor, true_and]

/-- R21: the parser of each side. -/
theorem State.pieceFault_parsers (h : s.entry? piece = some e) (f : PieceFault) (sd : Side) :
    (s.pieceFault piece f).parsers.get sd =
      if e.running = true then (s.parsers.get sd).clearMark piece else s.parsers.get sd := by
  cases hr : e.running with
  | false => rw [State.pieceFault_finished h hr, if_neg (by simp)]; rfl
  | true =>
    rw [State.pieceFault_running h hr]
    simp [State.finishInspection]

/-- R77: a generation that no other running entry names is released. -/
theorem State.pieceFault_gens (h : s.entry? piece = some e) (f : PieceFault) :
    (s.pieceFault piece f).gens =
      if e.running = true then
        { s.gens with older := s.gens.older.filter fun g =>
            s.entries.any fun q => decide (q.piece ≠ piece) && q.running && (q.generation == g.number) }
      else s.gens := by
  cases hr : e.running with
  | false => rw [State.pieceFault_finished h hr, if_neg (by simp)]; rfl
  | true =>
    rw [State.pieceFault_running h hr, if_pos rfl]
    simp only [State.dropZoneWork_gens, State.finishInspection, State.releaseGenerations, State.claims,
      State.modifyEntry, List.any_map]
    congr 2
    funext g
    congr 1
    funext q
    by_cases hq : q.piece = piece
    · simp [hq, Entry.takeFault_piece]
    · simp [hq]

end PieceFault

/-- Settles O45: by whether the inspection runs, and the answer is given. -/
theorem pieceFaultDecidesAndFinishes : Obligations.PieceFaultDecidesAndFinishes := by
  refine ⟨fun s piece f e _ he => ?_, fun s piece e he => ⟨fun hr hl => ?_, fun hn => ?_⟩, fun s piece hn => ?_⟩
  · intro t
    have frame : InspectFrame s t := s.pieceFault_inspect piece f
    refine ⟨⟨_, State.entry?_pieceFault_same he f, ?_, ?_, fun k => ?_, fun c k => ?_⟩,
      fun p hp => State.entry?_pieceFault_ne he f hp, frame.pieces_eq, fun hr sd ho => ?_, fun sd ho => ?_,
      fun sd ln hl => ?_, fun sd hn => (State.pieceFault_parser s piece f) sd hn, State.pieceFault_gens he f,
      s.pieceFault_status piece f, frame.tally, frame.report, frame.mode, frame.trays, frame.path, frame.setup,
      frame.cancel, frame.uncounted⟩
    · split
      · exact e.faultEnded_eq f
      · rename_i hr
        have hr : e.running = false := by simpa using hr
        rw [← hr]
        exact e.takeFault_eq f
    · split <;> exact e.takeFault_decision f
    · rw [← e.takeFault_hasRemark f]
      split <;> rfl
    · have hz : (e.takeFault f).zone c k = e.zone c k := by
        unfold Entry.takeFault
        split <;> rfl
      split
      · rename_i hr
        simp only [hr, true_and, ← hz]
        exact Entry.dropUndone_zone { e.takeFault f with running := false } c k
      · rename_i hr
        rw [if_neg fun x => hr x.1, hz]
    · rw [State.pieceFault_zones he, if_pos ⟨hr, ho⟩]
      rfl
    · rw [State.pieceFault_zones he, if_neg]
      rintro ⟨hr, ho'⟩
      rcases ho with ho | ho
      · exact ho ho'
      · simp [hr] at ho
    · rw [State.pieceFault_parsers he, hl]
      by_cases hr : e.running = true
      · simp only [hr, if_true, true_and, Parser.clearMark]
      · simp only [hr, if_false, false_and, Bool.false_eq_true]
  · rw [State.faultLimitCheck, he]
    exact if_pos ⟨hr, hl⟩
  · rw [State.faultLimitCheck, he]
    refine if_neg fun ⟨hr, hl⟩ => ?_
    rcases hn with hn | hn
    · simp [hr] at hn
    · omega
  · rw [State.faultLimitCheck, hn]

end Sys2Proof.Machine
end

section
/-! PROOF. O44: a side close completes its leading zones and builds its trailing ones (R18, R35, R37). -/

namespace Sys2Proof.Machine

/-! ### Zone records of an entry -/

/-- A change of one corner, seen corner by corner. -/
theorem Entry.modifyCorner_zone (e : Entry) (c c' : Corner) (f : Cls → ZoneRecord → ZoneRecord) (k : Cls) :
    (e.modifyCorner c f).zone c' k = if c' = c then f k (e.zone c k) else e.zone c' k := by
  simp only [Entry.zone, Entry.modifyCorner, Fin.getElem_fin, Vector.getElem_set]
  by_cases h : c' = c
  · subst h
    simp
  · have hv : c.val ≠ c'.val := fun hv => h (Fin.ext hv.symm)
    simp [h, hv]

/-- Only the zone records of an entry differ. -/
def Entry.ZonesOnly (e e' : Entry) : Prop := e' = { e with zones := e'.zones }

theorem Entry.ZonesOnly.refl (e : Entry) : e.ZonesOnly e := rfl

theorem Entry.ZonesOnly.trans {e f g : Entry} (h : e.ZonesOnly f) (k : f.ZonesOnly g) : e.ZonesOnly g := by
  unfold Entry.ZonesOnly at *
  rw [k, h]

theorem Entry.addLine_zonesOnly (e : Entry) (st : Settings) (sd : Side) (en : End) (x extent : Nat) (q : LineTallies) :
    e.ZonesOnly (e.addLine st sd en x extent q) := rfl

theorem Entry.completeEnd_zonesOnly (e : Entry) (st : Settings) (sd : Side) (en : End) :
    e.ZonesOnly (e.completeEnd st sd en) := rfl

theorem Entry.buildTrailing_zonesOnly (e : Entry) (st : Settings) (sd : Side) (n : Nat) (ring : List RingEntry) :
    e.ZonesOnly (e.buildTrailing st sd n ring) :=
  .trans (foldl_frame Entry.ZonesOnly.refl (fun _ _ _ => Entry.ZonesOnly.trans)
    (fun e (q : RingEntry) => e.addLine_zonesOnly st sd .trail q.x q.extent q.tallies) _ e)
    (Entry.completeEnd_zonesOnly _ _ _ _)

theorem cornerOf_edge_inj {sd : Side} {en : End} : cornerOf sd en .top ≠ cornerOf sd en .bottom := by
  cases sd <;> cases en <;> decide

/-- R34: the corner of an edge after a line, class by class. -/
theorem Entry.addLine_zone (e : Entry) (st : Settings) (sd : Side) (en : End) (x extent : Nat) (q : LineTallies)
    (ed : Edge) (k : Cls) : (e.addLine st sd en x extent q).zone (cornerOf sd en ed) k =
      if (st.tests.get k).runFloor ≤ ((q.get ed).get k).h then
        (e.zone (cornerOf sd en ed) k).addLine x extent ((q.get ed).get k)
      else e.zone (cornerOf sd en ed) k := by
  have hne := @cornerOf_edge_inj sd en
  unfold Entry.addLine Entry.addToCorner
  cases ed
  · rw [Entry.modifyCorner_zone, if_neg hne, Entry.modifyCorner_zone, if_pos rfl]
    rfl
  · rw [Entry.modifyCorner_zone, if_pos rfl, Entry.modifyCorner_zone, if_neg hne.symm]
    rfl

/-- R34: a line leaves the corners of the other side and of the other end. -/
theorem Entry.addLine_zone_other (e : Entry) (st : Settings) (sd : Side) (en : End) (x extent : Nat) (q : LineTallies)
    {c : Corner} (hc : ∀ ed, c ≠ cornerOf sd en ed) (k : Cls) : (e.addLine st sd en x extent q).zone c k = e.zone c k := by
  unfold Entry.addLine Entry.addToCorner
  rw [Entry.modifyCorner_zone, if_neg (hc .bottom), Entry.modifyCorner_zone, if_neg (hc .top)]

/-- R35, R37: the corner of an edge once its end is complete. -/
theorem Entry.completeEnd_zone (e : Entry) (st : Settings) (sd : Side) (en : End) (ed : Edge) (k : Cls) :
    (e.completeEnd st sd en).zone (cornerOf sd en ed) k =
      (e.zone (cornerOf sd en ed) k).complete (st.tests.get k) := by
  have hne := @cornerOf_edge_inj sd en
  unfold Entry.completeEnd
  cases ed
  · rw [Entry.modifyCorner_zone, if_neg hne, Entry.modifyCorner_zone, if_pos rfl]
  · rw [Entry.modifyCorner_zone, if_pos rfl, Entry.modifyCorner_zone, if_neg hne.symm]

theorem Entry.completeEnd_zone_other (e : Entry) (st : Settings) (sd : Side) (en : End) {c : Corner}
    (hc : ∀ ed, c ≠ cornerOf sd en ed) (k : Cls) : (e.completeEnd st sd en).zone c k = e.zone c k := by
  unfold Entry.completeEnd
  rw [Entry.modifyCorner_zone, if_neg (hc .bottom), Entry.modifyCorner_zone, if_neg (hc .top)]

/-- R37 step 2: the lines of a list added one after another to a corner: those that reach the run floor. -/
theorem Entry.foldl_addLine_zone (st : Settings) (sd : Side) (en : End) (ed : Edge) (k : Cls) (l : List RingEntry) :
    ∀ e : Entry, (l.foldl (fun e q => e.addLine st sd en q.x q.extent q.tallies) e).zone (cornerOf sd en ed) k =
      (l.filter fun q => decide ((st.tests.get k).runFloor ≤ ((q.tallies.get ed).get k).h)).foldl
        (fun z q => z.addLine q.x q.extent ((q.tallies.get ed).get k)) (e.zone (cornerOf sd en ed) k) := by
  induction l with
  | nil => exact fun _ => rfl
  | cons q l ih =>
    intro e
    rw [List.foldl_cons, ih, Entry.addLine_zone]
    by_cases hf : (st.tests.get k).runFloor ≤ ((q.tallies.get ed).get k).h <;> simp [hf]

theorem Entry.foldl_addLine_zone_other (st : Settings) (sd : Side) (en : End) {c : Corner}
    (hc : ∀ ed, c ≠ cornerOf sd en ed) (k : Cls) (l : List RingEntry) :
    ∀ e : Entry, (l.foldl (fun e q => e.addLine st sd en q.x q.extent q.tallies) e).zone c k = e.zone c k := by
  induction l with
  | nil => exact fun _ => rfl
  | cons q l ih =>
    intro e
    rw [List.foldl_cons, ih, Entry.addLine_zone_other _ _ _ _ _ _ _ hc]

/-- R37: a TRAIL record is built from the ring's unfaulted lines of the trailing zone that reach its run floor. -/
theorem Entry.buildTrailing_zone (st : Settings) (sd : Side) (n : Nat) (ring : List RingEntry) (e : Entry) (ed : Edge)
    (k : Cls) : (e.buildTrailing st sd n ring).zone (cornerOf sd .trail ed) k =
      (((ring.filter fun q => decide (n ≤ q.x + st.geometry.zw) && !q.faulted &&
          decide ((st.tests.get k).runFloor ≤ ((q.tallies.get ed).get k).h)).foldl
        (fun z q => z.addLine q.x q.extent ((q.tallies.get ed).get k)) (e.zone (cornerOf sd .trail ed) k)).complete
          (st.tests.get k)) := by
  unfold Entry.buildTrailing
  rw [Entry.completeEnd_zone, Entry.foldl_addLine_zone, trailingEntries, List.filter_filter]
  congr 3
  funext q
  rw [Bool.and_comm]
  simp only [Nat.sub_le_iff_le_add]

theorem Entry.buildTrailing_zone_other (st : Settings) (sd : Side) (n : Nat) (ring : List RingEntry) (e : Entry)
    {c : Corner} (hc : ∀ ed, c ≠ cornerOf sd .trail ed) (k : Cls) :
    (e.buildTrailing st sd n ring).zone c k = e.zone c k := by
  unfold Entry.buildTrailing
  rw [Entry.completeEnd_zone_other _ _ _ _ hc, Entry.foldl_addLine_zone_other _ _ _ hc]

/-! ### The close -/

@[simp] theorem State.leadingNotice_zones (s : State) (sd : Side) (p : Nat) : (s.leadingNotice sd p).zones = s.zones := by
  unfold State.leadingNotice
  split <;> simp

/-- R35: leading completion sends the side's zone work to BODY. -/
theorem State.completeLeading_zones (s : State) (sd : Side) (p : Nat) (st : Settings) :
    (s.completeLeading sd p st).zones = s.zones.set sd { s.zones.get sd with state := .body } := by
  simp only [State.completeLeading, State.leadingNotice_zones]
  rfl

/-- R37: a close while the leading zones are complete. -/
theorem State.zoneClose_body {s : State} {sd : Side} (h : (s.zones.get sd).state ≠ .leading) (p n : Nat) (st : Settings) :
    s.zoneClose sd p n st =
      ({ s.withPiece p (Entry.buildTrailing st sd n (s.zones.get sd).ring) with
          zones := s.zones.set sd ZoneWork.idle } : State).closedNotice p := by
  unfold State.zoneClose
  rw [if_neg h]
  rfl

/-- R37: a close that first completes the leading zones. -/
theorem State.zoneClose_leading {s : State} {sd : Side} (h : (s.zones.get sd).state = .leading) (p n : Nat)
    (st : Settings) :
    s.zoneClose sd p n st =
      ({ (s.completeLeading sd p st).withPiece p (Entry.buildTrailing st sd n (s.zones.get sd).ring) with
          zones := s.zones.set sd ZoneWork.idle } : State).closedNotice p := by
  have hz := s.completeLeading_zones sd p st
  have hring : ((s.completeLeading sd p st).zones.get sd).ring = (s.zones.get sd).ring := by
    rw [hz, PerSide.get_set_same]
  unfold State.zoneClose
  simp only [if_pos h, hring]
  refine congrArg (State.closedNotice p) ?_
  simp only [State.setZone, State.modifyEntry_zones, hz, PerSide.set_set]
  rfl

/-- Settles O44: by the side's state, the inspection, and whether the leading zones are complete. -/
theorem sideClosesBuildTrailingZones : Obligations.SideClosesBuildTrailingZones := by
  refine ⟨fun s sd piece x e he => ⟨fun hs => ?_, fun hs hr => ?_, fun hs hr _ => ?_⟩,
    fun st sd n ring e k => ⟨e.buildTrailing_zonesOnly st sd n ring, fun ed => e.buildTrailing_zone st sd n ring ed k,
      fun c hc => e.buildTrailing_zone_other st sd n ring hc k⟩⟩
  · rw [State.sideClose, he]
    exact if_neg hs
  · rw [State.sideClose, he]
    simp only [if_pos hs, hr]
    rfl
  · rw [State.sideClose, he]
    simp only [if_pos hs, hr, if_true]
    by_cases hz : (s.zones.get sd).state = .leading
    · rw [State.zoneClose_leading (by exact hz), if_pos hz]
      rfl
    · rw [State.zoneClose_body (by exact hz), if_neg hz]
      rfl

end Sys2Proof.Machine
end

section
/-! PROOF. O49: an exit word retires its entry and ages the older ones (R22, R86 to R90, R132). -/

namespace Sys2Proof.Machine

/-! ### A request for one slot (R86, R168) -/

section SlotRequest

variable {s : State} {m : MemoryMap} {base size j : Nat} {r : Request}

theorem State.SlotRequest.kind {k : ReqKind} (h : s.SlotRequest k base size j r) : r.kind = k := by
  have := h.form
  simp only [Request.wellFormedAs, Bool.and_eq_true, decide_eq_true_eq] at this
  exact this.2

/-- R168: a slot of a window whose base is a multiple of its span crosses no page. -/
theorem State.SlotRequest.not_outside {k : ReqKind} (h : s.SlotRequest k base 8 j r) (ha : base % 1024 = 0) :
    reqOutside r = false := by
  refine reqOutside_eq_false ?_ h.source
  have hlo := h.addr
  have hlen := h.length
  have hj := h.slot
  have hhi : reqHi r = reqLo r + 8 * r.beats := rfl
  simp only [reqCrosses, ne_eq, decide_eq_false_iff_not, not_not]
  omega

theorem State.SlotRequest.within {k : ReqKind} (h : s.SlotRequest k base 8 j r) : reqWithin r (base, 512) := by
  have hlo := h.addr
  have hlen := h.length
  have hj := h.slot
  have hhi : reqHi r = reqLo r + 8 * r.beats := rfl
  unfold reqWithin
  omega

theorem filter_range_eq_singleton {p : Nat → Bool} {n : Nat} (hj : j < n) (hp : ∀ i < n, p i = true ↔ i = j) :
    (List.range n).filter p = [j] := by
  have hpj : (List.range n).filter p = (List.range n).filter (fun i => i = j) :=
    List.filter_congr fun i hi => by rw [Bool.eq_iff_iff, hp i (List.mem_range.mp hi), decide_eq_true_eq]
  rw [hpj, List.filter_eq, List.count_eq_one_of_mem List.nodup_range (List.mem_range.mpr hj)]
  rfl

/-- R86: a request for one slot touches that slot alone. -/
theorem State.SlotRequest.slotsTouched {k : ReqKind} (h : s.SlotRequest k base 8 j r) :
    slotsTouched r base 8 64 = [j] := by
  refine filter_range_eq_singleton h.slot fun i _ => ?_
  have hlo := h.addr
  have hlen := h.length
  have hhi : reqHi r = reqLo r + 8 * r.beats := rfl
  simp only [reqTouches, Bool.and_eq_true, decide_eq_true_eq]
  omega

/-- R86, R160: an exit word falls into the exit window alone. -/
theorem State.SlotRequest.partsOf_exit (h : s.SlotRequest .write m.exit 8 j r) (hm : s.setup.map = some m) :
    partsOf s.setup r = [(m.exit, .exit)] := by
  have hplaced := (h.placed.map m hm).2
  have hin := h.within
  have halign : m.exit % 1024 = 0 := by
    have := (Bool.and_eq_true_iff.mp hplaced).1
    simp only [MemoryMap.extents, List.all_cons, Bool.and_eq_true, decide_eq_true_eq] at this
    omega
  have h0 := hin.not_touches (spansMeet_comm _ _ ▸ MemoryMap.apart hplaced (i := 0) (j := 6) (by decide) (by decide))
  have h1 := hin.not_inside (spansMeet_comm _ _ ▸ MemoryMap.apart hplaced (i := 1) (j := 6) (by decide) (by decide))
  have h2 := hin.not_inside (spansMeet_comm _ _ ▸ MemoryMap.apart hplaced (i := 2) (j := 6) (by decide) (by decide))
  have h5 := hin.not_touches (spansMeet_comm _ _ ▸ MemoryMap.apart hplaced (i := 5) (j := 6) (by decide) (by decide))
  have h6 := hin.touches
  simp only [MemoryMap.spans, MemoryMap.extents, List.map_cons, List.map_nil, List.getElem_cons_zero,
    List.getElem_cons_succ] at h0 h1 h2 h5 h6
  unfold Machine.partsOf
  simp only [h.not_outside halign, h.kind, hm, Bool.false_eq_true, if_false]
  simp [partIf, h0, h1, h2, h5, h6]

/-- R86, R171: an accepted exit word is queued, and the track table takes it unless the mode is STANDBY. -/
theorem State.SlotRequest.exec_exit (h : s.SlotRequest .write m.exit 8 j r) (hm : s.setup.map = some m)
    {x : SourceTable} (hx : s.setup.sources = some x) :
    exec (.exitWrite r) s = .next (if s.mode = .standby then s.queued r []
      else State.exitWord (some x.gate) r m.exit (s.queued r []) j) := by
  refine congrArg Host.Outcome.next ((State.present_part h.room h.kind (h.partsOf_exit hm)).trans ?_)
  simp only [State.takePart, State.takeExitWrite, h.slotsTouched, hx, gateId, Option.map_some, List.foldl_cons,
    List.foldl_nil]
  rfl

end SlotRequest

/-! ### A word that is refused (R86) -/

theorem State.entry?_eq_none_iff {s : State} {p : Nat} : s.entry? p = none ↔ ∀ e ∈ s.entries, e.piece ≠ p :=
  ⟨State.entry?_none, fun h => List.find?_eq_none.mpr fun e he => by simpa using h e he⟩

/-- R86: from another source, not all enabled, for another slot, or of a piece without an entry: STRAY_WRITE. -/
theorem State.exitWord_stray {s : State} {gate : Nat} {r : Request} {base j : Nat} (ha : reqLo r = base + 8 * j)
    (h : gate ≠ r.source.toNat ∨ writtenBytes r (reqLo r) 8 = none ∨
      ∃ bs, writtenBytes r (reqLo r) 8 = some bs ∧ (half bs 0 % 64 ≠ j ∨ ∀ e ∈ s.entries, e.piece ≠ half bs 0)) :
    State.exitWord (some gate) r base s j = s.flagged 13 := by
  unfold State.exitWord
  rw [← ha]
  by_cases hg : gate = r.source.toNat
  · rw [if_neg (by simp [hg])]
    rcases h with h | h | ⟨bs, hb, h⟩
    · exact absurd hg h
    · rw [h]
      rfl
    · rw [hb]
      by_cases hs : half bs 0 % 64 = j
      · have hn := State.entry?_eq_none_iff.mpr (h.resolve_left fun hne => hne hs)
        simp only [hs, ne_eq, not_true_eq_false, if_false, hn]
        rfl
      · simp only [ne_eq, hs, not_false_eq_true, if_true]
        rfl
  · rw [if_pos (by simpa using hg)]
    rfl

/-- R86: any other exit word is taken. -/
theorem State.exitWord_taken {s : State} {gate : Nat} {r : Request} {base j : Nat} (ha : reqLo r = base + 8 * j)
    (hg : gate = r.source.toNat) {bs : List Byte} (hb : writtenBytes r (reqLo r) 8 = some bs) (hs : half bs 0 % 64 = j)
    {e : Entry} (he : s.entry? (half bs 0) = some e) :
    State.exitWord (some gate) r base s j =
      s.exit (half bs 0) (byteAt bs 2).toNat (bitOf (byteAt bs 3).toNat 0) := by
  unfold State.exitWord
  rw [← ha, if_neg (by simp [hg]), hb]
  simp only [hs, ne_eq, not_true_eq_false, if_false, he]

/-! ### The place of an entry in the table -/

/-- An entry stands in the table between its older and its younger entries, and no other has its number. -/
structure State.PlacedAt (s : State) (older : List Entry) (e : Entry) (younger : List Entry) : Prop where
  list    : s.entries = older ++ e :: younger
  older   : ∀ q ∈ older, q.piece ≠ e.piece
  younger : ∀ q ∈ younger, q.piece ≠ e.piece

/-- With no number twice, every entry stands at its place. -/
theorem State.placedAt_of_nodup {s : State} {older younger : List Entry} {e : Entry}
    (h : s.entries = older ++ e :: younger) (hd : s.pieces.Nodup) : s.PlacedAt older e younger := by
  rw [State.pieces, h, List.map_append, List.map_cons] at hd
  obtain ⟨_, hey, hoey⟩ := List.nodup_append.mp hd
  have hne := (List.nodup_cons.mp hey).1
  exact ⟨h, fun q hq => hoey _ (List.mem_map_of_mem hq) _ List.mem_cons_self,
    fun q hq hqe => hne (hqe ▸ List.mem_map_of_mem hq)⟩

/-- With no number twice, no younger entry has the number of an older one. -/
theorem State.younger_ne_older {s : State} {older younger : List Entry} {e : Entry}
    (h : s.entries = older ++ e :: younger) (hd : s.pieces.Nodup) : ∀ q ∈ younger, ∀ p ∈ older, q.piece ≠ p.piece := by
  rw [State.pieces, h, List.map_append, List.map_cons] at hd
  intro q hq p hp
  exact ((List.nodup_append.mp hd).2.2 _ (List.mem_map_of_mem hp) _
    (List.mem_cons_of_mem _ (List.mem_map_of_mem hq))).symm

namespace State.PlacedAt

variable {s : State} {older younger : List Entry} {e : Entry}

/-- The place of an entry that is changed and keeps its number. -/
theorem changed (h : s.PlacedAt older e younger) {e' : Entry} (hp : e'.piece = e.piece) {t : State}
    (ht : t.entries = older ++ e' :: younger) : t.PlacedAt older e' younger :=
  ⟨ht, hp ▸ h.older, hp ▸ h.younger⟩

theorem entry? (h : s.PlacedAt older e younger) : s.entry? e.piece = some e := by
  have hnone : older.find? (fun q => q.piece == e.piece) = none :=
    List.find?_eq_none.mpr fun q hq => by simpa using h.older q hq
  simp [State.entry?, h.list, List.find?_append, hnone]

theorem modifyEntry (h : s.PlacedAt older e younger) (f : Entry → Entry) :
    s.modifyEntry e.piece f = { s with entries := older ++ f e :: younger } := by
  have hmo : older.map (fun q => if q.piece = e.piece then f q else q) = older :=
    (List.map_congr_left fun q hq => if_neg (h.older q hq)).trans (List.map_id _)
  have hmy : younger.map (fun q => if q.piece = e.piece then f q else q) = younger :=
    (List.map_congr_left fun q hq => if_neg (h.younger q hq)).trans (List.map_id _)
  simp [State.modifyEntry, h.list, hmo, hmy]

theorem removed (h : s.PlacedAt older e younger) :
    (s.entries.filter fun q => decide (q.piece ≠ e.piece)) = older ++ younger := by
  rw [h.list, List.filter_append, List.filter_cons_of_neg (by simp), List.filter_eq_self.mpr, List.filter_eq_self.mpr]
  · simpa using h.younger
  · simpa using h.older

theorem takeWhile (h : s.PlacedAt older e younger) :
    (s.entries.takeWhile fun q => decide (q.piece ≠ e.piece)) = older := by
  rw [h.list, List.takeWhile_append_of_pos (by simpa using h.older), List.takeWhile_cons_of_neg (by simp),
    List.append_nil]

theorem olderThan (h : s.PlacedAt older e younger) : s.olderThan e.piece = older.map Entry.piece := by
  rw [State.olderThan, h.takeWhile]

end State.PlacedAt

/-! ### Retirement as a departure (R90) -/

/-- No tray record waits, whatever departs: a piece record is not one. -/
theorem State.departed_noTrayQueued {s : State} (h : s.NoTrayQueued) (e : Entry) (d : Disposition) (l : List Entry) :
    (s.departed e d l).NoTrayQueued := by
  intro q hq
  have hq : q ∈ (if s.report.queue.length < 8 then
      s.report.queue ++ [{ record := .piece (e.record d s.report.seq s.tally.trayNumber), state := .waiting }]
      else s.report.queue) := by
    unfold State.departed at hq
    simp only [] at hq
    by_cases hl : s.report.queue.length < 8 <;> simpa [hl, State.flagged] using hq
  split at hq
  · rcases List.mem_append.mp hq with hq | hq
    · exact h q hq
    · rw [List.mem_singleton.mp hq]
      rfl
  · exact h q hq

theorem State.departed_other (s : State) (e : Entry) (d : Disposition) (l : List Entry) :
    (s.departed e d l).tally.other = s.tally.other := by
  unfold State.departed
  simp only []
  split <;> rfl

/-- R90: a retirement is a departure with its limit check. -/
theorem State.retire_eq_departed {s : State} {older younger : List Entry} {e : Entry}
    (h : s.PlacedAt older e younger) (ht : s.tally.other = .free → s.NoTrayQueued) (c : RetireCause) :
    s.retire c e.piece = (s.departed (e.retired c) (e.dispositionFor c) (older ++ younger)).limitAsked := by
  have hp : (e.retired c).piece = e.piece := Entry.addRemarkIf_piece _ _ _
  have hrem : ((s.removeEntry e.piece).count (e.dispositionFor c).code).formPieceRecord (e.retired c)
      (e.dispositionFor c) = s.departed (e.retired c) (e.dispositionFor c) (older ++ younger) := by
    simp only [State.formPieceRecord, State.removeEntry, State.count, State.releaseGenerations, State.claims,
      h.removed, State.departed, hp, TallyUnit.count_eq_counted, reportCapacity]
    by_cases hl : s.report.queue.length < 8
    · simp only [hl, if_true]
      rfl
    · simp only [hl, if_false]
      rfl
  rw [State.retire, h.entry?]
  simp only [hrem]
  exact State.limitCheck_eq_limitAsked fun ho =>
    State.departed_noTrayQueued (ht (State.departed_other s _ _ _ ▸ ho)) _ _ _

/-- The ages of the entries that stay are nothing to the departure. -/
theorem State.departed_entries (s : State) (e : Entry) (d : Disposition) {l l' : List Entry}
    (h : ∀ n, (l'.any fun q => q.running && (q.generation == n)) = l.any fun q => q.running && (q.generation == n)) :
    s.departed e d l' = { s.departed e d l with entries := l' } := by
  unfold State.departed
  simp only [h]
  split <;> rfl

theorem State.limitAsked_entries (s : State) (l : List Entry) :
    ({ s with entries := l } : State).limitAsked = { s.limitAsked with entries := l } := by
  unfold State.limitAsked State.closeAsked
  simp only []
  repeat' split
  all_goals rfl

theorem State.departed_entries_eq (s : State) (e : Entry) (d : Disposition) (l : List Entry) :
    (s.departed e d l).entries = l := by
  unfold State.departed
  simp only []
  split <;> rfl

theorem State.departed_mode (s : State) (e : Entry) (d : Disposition) (l : List Entry) :
    (s.departed e d l).mode = s.mode := by
  unfold State.departed
  simp only []
  split <;> rfl

theorem State.limitAsked_mode (s : State) : s.limitAsked.mode = s.mode := by
  unfold State.limitAsked State.closeAsked
  repeat' split
  all_goals rfl

theorem State.limitAsked_entries_eq (s : State) : s.limitAsked.entries = s.entries := by
  unfold State.limitAsked State.closeAsked
  repeat' split
  all_goals rfl

/-! ### Aging (R89) -/

theorem any_claim_age (older younger : List Entry) (n : Nat) :
    ((older.map (fun q : Entry => { q with age := q.age + 1 }) ++ younger).any fun q => q.running && (q.generation == n)) =
      (older ++ younger).any fun q => q.running && (q.generation == n) := by
  simp [List.any_append, List.any_map, Function.comp_def]

/-- R89: no entry has come of age. -/
theorem State.retireAged_eq_self {s : State} (h : ∀ e ∈ s.entries, e.age < s.trays.inForce.ageLimit) :
    s.retireAged = s := by
  have : (s.entries.filter fun e => decide (s.trays.inForce.ageLimit ≤ e.age)) = [] :=
    List.filter_eq_nil_iff.mpr fun e he => by simpa using h e he
  simp [State.retireAged, this]

theorem State.drainEndIfDue_eq_self {s : State} (h : s.mode = .drain → s.entries ≠ []) : s.drainEndIfDue = s :=
  if_neg fun hd => h hd.1 hd.2

theorem Entry.addRemarkIf_eq (e : Entry) (b : Bool) (k : Remark) :
    e.addRemarkIf b k = { e with remarks := e.remarks ||| (if b then BitVec.twoPow 17 k.index else 0) } := by
  cases b
  · simp [Entry.addRemarkIf]
  · rfl

/-- R87: the remark that the dispatch answer brings about: EARLY_EXIT without one, MISSTACK on another stacker. -/
def Entry.exitRemark (e : Entry) (stacker : Nat) : BitVec 17 :=
  match e.dispatch with
  | none => 128
  | some a => if stacker ≠ a.stacker then 32 else 0

/-- R87: what an exit word writes into its entry. -/
theorem Entry.takeExit_eq (e : Entry) (st : Nat) (jam : Bool) :
    e.takeExit st jam = { e with
      stacker := some (min st 15)
      remarks := e.remarks ||| (if jam = true then 64 else 0) ||| e.exitRemark (min st 15) } := by
  unfold Entry.takeExit Entry.exitRemark
  simp only [Entry.addRemarkIf_eq, decide_eq_true_eq]
  cases e.dispatch <;> rfl

theorem bitOf_zero (b : Byte) : bitOf b.toNat 0 = b.getLsbD 0 := by
  simp [bitOf, BitVec.getLsbD, Nat.testBit_zero]

/-- R89: the older entries grow older, and that is all. -/
theorem State.ageOlder_at {s : State} {older younger : List Entry} (h : s.entries = older ++ younger)
    (hd : ∀ q ∈ younger, ∀ p ∈ older, q.piece ≠ p.piece) :
    s.ageOlder (older.map Entry.piece) =
      { s with entries := older.map (fun q => { q with age := q.age + 1 }) ++ younger } := by
  have ho : older.map (fun e => if e.piece ∈ older.map Entry.piece then { e with age := e.age + 1 } else e) =
      older.map fun q => { q with age := q.age + 1 } :=
    List.map_congr_left fun q hq => if_pos (List.mem_map_of_mem hq)
  have hy : younger.map (fun e => if e.piece ∈ older.map Entry.piece then { e with age := e.age + 1 } else e) = younger :=
    (List.map_congr_left fun q hq => if_neg fun hm => by
      obtain ⟨p, hp, hpq⟩ := List.mem_map.mp hm
      exact hd q hq p hp hpq.symm).trans (List.map_id _)
  rw [State.ageOlder, h, List.map_append, ho, hy]

/-- R87, R89, R90: an exit word of which no entry comes of age, and which ends no drain. -/
theorem State.exit_eq_departed {s : State} {older younger : List Entry} {e : Entry} (st : Nat) (jam : Bool)
    (h : s.entries = older ++ e :: younger) (hd : s.pieces.Nodup) (ht : s.tally.other = .free → s.NoTrayQueued)
    (hm : s.mode = .drain → older ++ younger ≠ []) :
    let e' := e.takeExit st jam
    let u := (s.departed (e'.retired .exit) (e'.dispositionFor .exit)
      (older.map (fun q => { q with age := q.age + 1 }) ++ younger)).limitAsked
    (∀ q ∈ older, q.age + 1 < u.trays.inForce.ageLimit) → (∀ q ∈ younger, q.age < u.trays.inForce.ageLimit) →
    s.exit e.piece st jam = u := by
  intro e' u ho hy
  have place := State.placedAt_of_nodup h hd
  have hoy := State.younger_ne_older h hd
  have hp : e'.piece = e.piece := e.takeExit_piece st jam
  have hretire : (s.modifyEntry e.piece (Entry.takeExit st jam)).retire .exit e.piece =
      (s.departed (e'.retired .exit) (e'.dispositionFor .exit) (older ++ younger)).limitAsked := by
    rw [place.modifyEntry, ← hp]
    exact State.retire_eq_departed (s := { s with entries := older ++ e' :: younger }) (place.changed hp rfl) ht
      .exit
  have hage : State.ageOlder (older.map Entry.piece)
      (s.departed (e'.retired .exit) (e'.dispositionFor .exit) (older ++ younger)).limitAsked = u := by
    rw [State.ageOlder_at ((State.limitAsked_entries_eq _).trans (State.departed_entries_eq _ _ _ _)) hoy,
      ← State.limitAsked_entries, ← State.departed_entries _ _ _ (any_claim_age older younger)]
  have hu : u.entries = older.map (fun q => { q with age := q.age + 1 }) ++ younger :=
    (State.limitAsked_entries_eq _).trans (State.departed_entries_eq _ _ _ _)
  have hmu : u.mode = s.mode := (State.limitAsked_mode _).trans (State.departed_mode _ _ _ _)
  have haged : u.retireAged = u := State.retireAged_eq_self fun q hq => by
    rw [hu] at hq
    rcases List.mem_append.mp hq with hq | hq
    · obtain ⟨p, hp, rfl⟩ := List.mem_map.mp hq
      exact ho p hp
    · exact hy q hq
  unfold State.exit
  simp only [place.olderThan, hretire, hage, haged]
  refine State.drainEndIfDue_eq_self fun hdr hn => hm (hmu ▸ hdr) ?_
  simpa [hu] using hn

/-- Settles O49: the mode, the check of R86, then the retirement of the entry at its place in the table. -/
theorem exitWordRetiresItsEntry : Obligations.ExitWordRetiresItsEntry := by
  intro s m x j r hm hx h
  have exec := h.exec_exit hm hx
  refine ⟨fun hs => ?_, fun hs hf => ?_, fun bs older younger e hg hb hj he hl hd ht hmode => ?_⟩
  · rw [exec, if_pos hs]
  · rw [exec, if_neg hs]
    exact congrArg _ (State.exitWord_stray h.addr hf)
  · intro used jam turned e' u ho hy
    have hs : s.mode ≠ .standby := by
      rcases hmode with hmode | hmode
      · simp [hmode]
      · simp [hmode.1]
    have hq : (s.queued r []).entry? (half bs 0) = some e := he ▸ (State.placedAt_of_nodup (s := s.queued r []) hl hd).entry?
    have hdrain : s.mode = .drain → older ++ younger ≠ [] := fun hdr =>
      hmode.elim (fun hrun => by simp [hrun] at hdr) And.right
    have he' : e.takeExit (byteAt bs 2).toNat (bitOf (byteAt bs 3).toNat 0) = e' := by
      rw [Entry.takeExit_eq, bitOf_zero]
      rfl
    rw [exec, if_neg hs, State.exitWord_taken h.addr hg hb hj hq, ← he]
    refine congrArg _ ?_
    have := State.exit_eq_departed (s := s.queued r []) (byteAt bs 2).toNat (bitOf (byteAt bs 3).toNat 0) hl hd ht hdrain
    rw [he'] at this
    exact this ho hy

end Sys2Proof.Machine
end

section
/-! PROOF. O38: the headers that start no line (R6, R7, R8, R10, R17, R20). -/

namespace Sys2Proof.Machine

/-! ### The header check, outcome by outcome (R6) -/

section CheckHeader

variable {s : State} {sd : Side} {h : Header} {e : Entry}

theorem State.checkHeader_malformed (hb : h.Bad sd) : s.checkHeader sd h = .malformed :=
  if_pos ((h.isMalformed_iff sd).mpr hb)

theorem State.checkHeader_unknown (hb : ¬h.Bad sd) (he : s.entry? h.piece = none) :
    s.checkHeader sd h = if h.lead = true then .newPiece else .orphan := by
  unfold State.checkHeader
  rw [if_neg fun x => hb ((h.isMalformed_iff sd).mp x), he]

theorem State.checkHeader_lead (hb : ¬h.Bad sd) (he : s.entry? h.piece = some e) (hl : h.lead = true) :
    s.checkHeader sd h = if (e.sides.get sd).state = .notSeen then .sideOpen else .duplicate := by
  unfold State.checkHeader
  rw [if_neg fun x => hb ((h.isMalformed_iff sd).mp x), he]
  exact if_pos hl

theorem State.checkHeader_closed (hb : ¬h.Bad sd) (he : s.entry? h.piece = some e) (hl : h.lead = false)
    (ho : (e.sides.get sd).state ≠ .opened) : s.checkHeader sd h = .orphan := by
  unfold State.checkHeader
  rw [if_neg fun x => hb ((h.isMalformed_iff sd).mp x), he]
  simp only [hl, Bool.false_eq_true, if_false, if_pos ho]

theorem State.checkHeader_opened (hb : ¬h.Bad sd) (he : s.entry? h.piece = some e) (hl : h.lead = false)
    (ho : (e.sides.get sd).state = .opened) :
    s.checkHeader sd h =
      if e.running = true ∧ (s.settingsOf e.generation).geometry.lineLimit ≤ h.index then .lineLimit
      else if h.index ≠ (e.sides.get sd).expected then .mismatch else .accepted := by
  unfold State.checkHeader
  rw [if_neg fun x => hb ((h.isMalformed_iff sd).mp x), he]
  simp only [hl, Bool.false_eq_true, if_false, ho, ne_eq, not_true_eq_false]

/-- R6: within the line limit, or once the inspection has finished. -/
theorem State.checkHeader_counted (hb : ¬h.Bad sd) (he : s.entry? h.piece = some e) (hl : h.lead = false)
    (ho : (e.sides.get sd).state = .opened)
    (hr : e.running = true → h.index < (s.settingsOf e.generation).geometry.lineLimit) :
    s.checkHeader sd h = if h.index ≠ (e.sides.get sd).expected then .mismatch else .accepted := by
  rw [State.checkHeader_opened hb he hl ho, if_neg]
  rintro ⟨hrun, hle⟩
  exact absurd (hr hrun) (Nat.not_lt.mpr hle)

end CheckHeader

/-! ### What each does (R7, R8, R10) -/

section NoLine

variable {s : State} {sd : Side} {slot : Nat} {h : Header} {e : Entry}

theorem State.takeHeader_malformed (hb : h.Bad sd) : s.takeHeader sd slot h = s.malformedHeader sd h := by
  rw [State.takeHeader, State.checkHeader_malformed hb]

theorem State.takeHeader_mismatch (hb : ¬h.Bad sd) (he : s.entry? h.piece = some e) (hl : h.lead = false)
    (ho : (e.sides.get sd).state = .opened)
    (hr : e.running = true → h.index < (s.settingsOf e.generation).geometry.lineLimit)
    (hx : h.index ≠ (e.sides.get sd).expected) : s.takeHeader sd slot h = s.mismatchHeader sd h := by
  rw [State.takeHeader, State.checkHeader_counted hb he hl ho hr, if_pos hx]

/-- R7: a MALFORMED header of an unknown piece, or of a side that is not OPEN. -/
theorem State.malformedHeader_stray (he : ∀ e, s.entry? h.piece = some e → (e.sides.get sd).state ≠ .opened) :
    s.malformedHeader sd h = (s.skipped sd).flagged 4 := by
  have he' : ((s.raise .lineFault).setParser sd .skipping).entry? h.piece = s.entry? h.piece := rfl
  unfold State.malformedHeader
  simp only [he']
  cases hp : s.entry? h.piece with
  | none => rfl
  | some e =>
    simp only [if_neg (he e hp)]
    rfl

/-- R7: a MALFORMED header of an OPEN side. -/
theorem State.malformedHeader_opened (he : s.entry? h.piece = some e) (ho : (e.sides.get sd).state = .opened) :
    s.malformedHeader sd h =
      if e.running = true ∧ (s.settingsOf e.generation).geometry.lineLimit ≤ (e.sides.get sd).expected then
        ((s.skipped sd).flagged 4).overlong sd h.piece
      else
        (((s.skipped sd).flagged 4).withSide sd h.piece fun q =>
          { q with expected := lineUp q.expected, faulted := lineUp q.faulted }).handFaulted sd h.piece
            (e.sides.get sd).expected 0 e.running := by
  have he' : ((s.raise .lineFault).setParser sd .skipping).entry? h.piece = some e := he
  unfold State.malformedHeader
  simp only [he', if_pos ho, satLine_eq_lineUp]
  rfl

/-- R10: a MISMATCH of an OPEN side. -/
theorem State.mismatchHeader_opened (he : s.entry? h.piece = some e) :
    s.mismatchHeader sd h =
      if (e.sides.get sd).expected < h.index then
        (((s.flagged 4).withSide sd h.piece fun q =>
          { q with expected := h.index + 1, faulted := lineUp q.faulted }).handFaulted sd h.piece h.index
            (h.bottom - h.top) e.running).skipped sd
      else if e.running = true then
        (((s.flagged 4).withSide sd h.piece fun q => { q with faulted := lineUp q.faulted }).faultLimitCheck
          h.piece).skipped sd
      else ((s.flagged 4).withSide sd h.piece fun q => { q with faulted := lineUp q.faulted }).skipped sd := by
  have he' : (s.raise .lineFault).entry? h.piece = some e := he
  unfold State.mismatchHeader
  simp only [he', satLine_eq_lineUp]
  split
  · rfl
  · split <;> rfl

end NoLine

/-- Settles O38: by the outcome of the header check. -/
theorem headersThatStartNoLine : Obligations.HeadersThatStartNoLine := by
  intro s sd slot h overlong
  refine ⟨fun hb he => ?_, fun e hb he ho => ?_, fun e hb hl he hs => ?_, fun hb hl he => ?_, fun e hb hl he ho => ?_⟩
  · rw [State.takeHeader_malformed hb, State.malformedHeader_stray he]
  · intro x limit t u
    rw [State.takeHeader_malformed hb, State.malformedHeader_opened he ho]
    refine ⟨fun hr hx => if_pos ⟨hr, hx⟩, fun hr hx => ?_, fun hr => ?_⟩
    · rw [if_neg fun hc => absurd hc.2 (Nat.not_le.mpr hx), hr]
      rfl
    · rw [if_neg fun hc => by simp [hr] at hc, hr]
      rfl
  · rw [State.takeHeader, State.checkHeader_lead hb he hl, if_neg hs]
    rfl
  · have hc : s.checkHeader sd h = .orphan := by
      cases hp : s.entry? h.piece with
      | none => rw [State.checkHeader_unknown hb hp, if_neg (by simp [hl])]
      | some e => exact State.checkHeader_closed hb hp hl (he e hp)
    rw [State.takeHeader, hc]
    by_cases hq : s.mode = .drain ∧ s.lastUninspected = some h.piece
    · rw [if_pos hq]
      simp [State.strayHeader, hq.1, hq.2, State.raiseIf, State.setParser_eq_skipped]
    · have hquiet : (decide (s.mode = .drain) && decide (s.lastUninspected = some h.piece)) = false := by
        rw [← Bool.decide_and, decide_eq_false hq]
      rw [if_neg hq]
      simp only [State.strayHeader, Bool.true_and, hquiet]
      rfl
  · intro x limit ahead behind
    refine ⟨fun hr hx => ?_, fun hx hr hlim => ?_, fun hx hr => ?_, fun hx hr hlim => ?_, fun hx hr => ?_⟩
    · rw [State.takeHeader, State.checkHeader_opened hb he hl ho, if_pos ⟨hr, hx⟩]
      rfl
    · rw [State.takeHeader_mismatch hb he hl ho (fun _ => hlim) (by omega), State.mismatchHeader_opened he, if_pos hx, hr]
      rfl
    · rw [State.takeHeader_mismatch hb he hl ho (by simp [hr]) (by omega), State.mismatchHeader_opened he, if_pos hx, hr]
      rfl
    · rw [State.takeHeader_mismatch hb he hl ho (fun _ => hlim) (by omega), State.mismatchHeader_opened he,
        if_neg (by omega), if_pos hr]
    · rw [State.takeHeader_mismatch hb he hl ho (by simp [hr]) (by omega), State.mismatchHeader_opened he,
        if_neg (by omega), if_neg (by simp [hr])]

end Sys2Proof.Machine
end

section
/-! PROOF. O39: the headers that start a line (R6, R9, R11, R20, R29). -/

namespace Sys2Proof.Machine

/-! ### An accepted header (R11) -/

/-- R11: the side record after a header that starts a line. -/
def SideRecord.withLine (h : Header) (r : SideRecord) : SideRecord :=
  { r with
    state := if r.state = .notSeen then .opened else r.state
    expected := h.index + 1
    maxExtent := max r.maxExtent (h.bottom - h.top) }

/-- R29: the start of the side's zone work by a LEAD. -/
def State.zoneOpenIf (lead : Bool) (sd : Side) (piece : Nat) (s : State) : State :=
  if lead then s.zoneOpen sd piece else s

theorem State.zoneOpenIf_setParser (s : State) (lead : Bool) (sd : Side) (piece : Nat) (p : Parser) :
    (s.setParser sd p).zoneOpenIf lead sd piece = (s.zoneOpenIf lead sd piece).setParser sd p := by
  have he : (s.setParser sd p).entry? piece = s.entry? piece := rfl
  unfold State.zoneOpenIf State.zoneOpen
  rw [he]
  repeat' split
  all_goals rfl

/-- R11: what an accepted header does before DOUBLE is looked at. -/
def State.lineStarted (sd : Side) (slot : Nat) (h : Header) (e : Entry) (s : State) : State :=
  ((s.withSide sd h.piece (SideRecord.withLine h)).zoneOpenIf h.lead sd h.piece).setParser sd
    (.inLine (h.line slot e.running))

theorem State.acceptHeader_eq {s : State} {h : Header} {e : Entry} (he : s.entry? h.piece = some e) (sd : Side)
    (slot : Nat) : s.acceptHeader sd slot h =
      if h.double = true then (s.lineStarted sd slot h e).pieceFault h.piece .double
      else s.lineStarted sd slot h e := by
  unfold State.acceptHeader
  rw [he]
  simp only [State.lineStarted, ← State.zoneOpenIf_setParser]
  rfl

/-! ### A header that starts a line, at its entry's place -/

section AtPlace

variable {s : State} {older younger : List Entry} {e : Entry} {sd : Side} {slot : Nat} {h : Header}

theorem State.PlacedAt.withSide (hl : s.PlacedAt older e younger) (f : SideRecord → SideRecord) :
    s.withSide sd e.piece f =
      { s with entries := older ++ { e with sides := e.sides.set sd (f (e.sides.get sd)) } :: younger } :=
  hl.modifyEntry (Entry.modifySide sd f)

theorem State.PlacedAt.lineStarted (hl : s.PlacedAt older e younger) (hp : e.piece = h.piece) :
    s.lineStarted sd slot h e =
      ({ s with
        entries := older ++ { e with sides := e.sides.set sd ((e.sides.get sd).withLine h) } :: younger
        parsers := s.parsers.set sd (.inLine (h.line slot e.running)) } : State).zoneOpenIf h.lead sd h.piece := by
  unfold State.lineStarted
  rw [← State.zoneOpenIf_setParser, ← hp, hl.withSide]
  rfl

/-- R29: at a LEAD the side's zone work starts while the inspection runs. -/
theorem State.PlacedAt.zoneOpen (hl : s.PlacedAt older e younger) :
    s.zoneOpen sd e.piece = if e.running = true then
      { s with zones := (s.zones.set sd
          { state := .leading, owner := some e.piece, line := none, tallies := LineTallies.zero, ring := [] }) }
      else s := by
  unfold State.zoneOpen
  rw [hl.entry?]
  rfl

end AtPlace

/-! ### A LEAD with no side to truncate or to mark MISSING -/

theorem State.truncateOpen_none {s : State} {sd : Side} (h : ∀ p ∈ s.entries, (p.sides.get sd).state ≠ .opened)
    (piece : Nat) : s.truncateOpen sd piece = s := by
  have hn : (s.entries.find? fun e => decide (e.piece ≠ piece) && decide ((e.sides.get sd).state = .opened)) = none :=
    List.find?_eq_none.mpr fun e he => by simp [h e he]
  unfold State.truncateOpen
  rw [hn]

theorem State.markMissingSides_none {s : State} {sd : Side} {piece : Nat} (h : s.missingPieces sd piece = []) :
    s.markMissingSides sd piece = s := by
  rw [State.markMissingSides, h]
  rfl

theorem State.PlacedAt.missingPieces {s : State} {older younger : List Entry} {e : Entry} {sd : Side}
    (hl : s.PlacedAt older e younger) (ho : ∀ p ∈ older, (p.sides.get sd).state ≠ .notSeen) :
    s.missingPieces sd e.piece = [] := by
  rw [State.missingPieces, hl.takeWhile, List.map_eq_nil_iff, List.filter_eq_nil_iff]
  exact fun p hp => by simpa using ho p hp

theorem Header.index_of_lead {sd : Side} {h : Header} (hb : ¬h.Bad sd) (hl : h.lead = true) : h.index = 0 :=
  by_contra fun hi => hb (.inr (.inr (.inr (.inr (.inr ⟨hl, hi⟩)))))

/-! ### DOUBLE (R11, R20) -/

theorem State.entry?_eq_none_iff_pieces {s : State} {p : Nat} : s.entry? p = none ↔ p ∉ s.pieces := by
  rw [State.entry?_eq_none_iff]
  simp [State.pieces]

theorem State.entry?_of_mem_pieces {s : State} {p : Nat} (h : p ∈ s.pieces) : ∃ e, s.entry? p = some e :=
  Option.ne_none_iff_exists'.mp fun hn => State.entry?_eq_none_iff_pieces.mp hn h

theorem State.mem_pieces_of_entry? {s : State} {p : Nat} {e : Entry} (h : s.entry? p = some e) : p ∈ s.pieces :=
  (State.entry?_spec h).2 ▸ List.mem_map_of_mem (State.entry?_spec h).1

theorem State.noLine_skipped (s : State) (sd : Side) : (s.setParser sd .skipping).NoLine sd :=
  State.noLine_setParser fun _ h => nomatch h

theorem State.noLine_malformedHeader (s : State) (sd : Side) (h : Header) : (s.malformedHeader sd h).NoLine sd := by
  have h0 := (s.raise .lineFault).noLine_skipped sd
  unfold State.malformedHeader
  simp only []
  split
  · exact h0
  · split
    · split
      · exact (State.pieceFault_parser _ _ _).noLine (s := State.modifyEntry _ _ _) h0
      · exact (State.handFaulted_parser _ _ _ _ _ _).noLine (s := State.modifyEntry _ _ _) h0
    · exact h0

theorem State.noLine_mismatchHeader (s : State) (sd : Side) (h : Header) : (s.mismatchHeader sd h).NoLine sd := by
  unfold State.mismatchHeader
  simp only []
  split <;> exact State.noLine_skipped _ sd

/-- R6: every outcome but three says of the piece that it has an entry. -/
theorem State.exists_entry_of_checkHeader {s : State} {sd : Side} {h : Header} {o : HeaderCheck}
    (hc : s.checkHeader sd h = o) (hm : o ≠ .malformed) (hn : o ≠ .newPiece) (ho : o ≠ .orphan) :
    ∃ e, s.entry? h.piece = some e := by
  refine Option.ne_none_iff_exists'.mp fun he => ?_
  have hb : ¬h.Bad sd := fun hb => hm (hc ▸ State.checkHeader_malformed hb)
  rw [State.checkHeader_unknown hb he] at hc
  split at hc
  · exact hn hc.symm
  · exact ho hc.symm

/-- R11: a header that starts a line hands a piece in the table, in some state, to the acceptance. -/
theorem State.takeHeader_inLine {s : State} {sd : Side} {slot : Nat} {h : Header} {ln : Line}
    (hl : (s.takeHeader sd slot h).parsers.get sd = .inLine ln) :
    ∃ (t : State) (e : Entry), t.entry? h.piece = some e ∧
      ∀ b, s.takeHeader sd slot { h with double := b } = t.acceptHeader sd slot { h with double := b } := by
  have hc : ∀ b, s.checkHeader sd { h with double := b } = s.checkHeader sd h := fun _ => rfl
  have absurd_noLine : (s.takeHeader sd slot h).NoLine sd → False := fun hn => hn ln hl
  unfold State.takeHeader at absurd_noLine
  unfold State.takeHeader
  simp only [hc]
  cases ho : s.checkHeader sd h <;> simp only [ho] at absurd_noLine ⊢
  case malformed => exact (absurd_noLine (s.noLine_malformedHeader sd h)).elim
  case duplicate => exact (absurd_noLine (State.noLine_skipped _ sd)).elim
  case orphan => exact (absurd_noLine (State.noLine_skipped _ sd)).elim
  case lineLimit => exact (absurd_noLine (State.noLine_skipped _ sd)).elim
  case mismatch => exact (absurd_noLine (s.noLine_mismatchHeader sd h)).elim
  case newPiece =>
    unfold State.newPieceHeader at absurd_noLine ⊢
    simp only [] at absurd_noLine ⊢
    by_cases hm : (s.truncateOpen sd h.piece).mode = .run
    · simp only [if_pos hm]
      have hmem : h.piece ∈ (((s.truncateOpen sd h.piece).openEntry h.piece).markMissingSides sd h.piece).pieces := by
        rw [(State.markMissingSides_inspect _ sd h.piece).pieces_eq, State.openEntry_pieces]
        simp
      obtain ⟨e, he⟩ := State.entry?_of_mem_pieces hmem
      exact ⟨_, e, he, fun _ => rfl⟩
    · rw [if_neg hm] at absurd_noLine
      exact (absurd_noLine (State.noLine_skipped _ sd)).elim
  case sideOpen =>
    obtain ⟨e₀, he₀⟩ := State.exists_entry_of_checkHeader ho (by decide) (by decide) (by decide)
    have frame := (s.truncateOpen_inspect sd h.piece).trans (State.markMissingSides_inspect _ sd h.piece)
    have hmem : h.piece ∈ ((s.truncateOpen sd h.piece).markMissingSides sd h.piece).pieces :=
      frame.pieces_eq ▸ State.mem_pieces_of_entry? he₀
    obtain ⟨e, he⟩ := State.entry?_of_mem_pieces hmem
    exact ⟨_, e, he, fun _ => rfl⟩
  case accepted =>
    obtain ⟨e, he⟩ := State.exists_entry_of_checkHeader ho (by decide) (by decide) (by decide)
    exact ⟨s, e, he, fun _ => rfl⟩

/-- R11, R20: DOUBLE marks the line that a header starts, and then raises the piece fault. -/
theorem State.acceptHeader_double {s : State} {sd : Side} {slot : Nat} {h : Header} {e : Entry} {ln : Line}
    (he : s.entry? h.piece = some e) (hd : h.double = true)
    (hl : (s.acceptHeader sd slot { h with double := false }).parsers.get sd = .inLine ln) :
    s.acceptHeader sd slot h =
      ((s.acceptHeader sd slot { h with double := false }).setParser sd (.inLine { ln with double := true })).pieceFault
        h.piece .double := by
  rw [State.acceptHeader_eq (h := { h with double := false }) he, if_neg (by simp)] at hl ⊢
  rw [State.acceptHeader_eq he, if_pos hd]
  have hln : ln = { h.line slot e.running with double := false } := by
    rw [State.lineStarted, State.parsers_setParser] at hl
    exact (Parser.inLine.inj hl).symm
  have hline : { ln with double := true } = h.line slot e.running := by
    rw [hln, ← hd]
    rfl
  rw [hline]
  refine congrArg (State.pieceFault h.piece .double) ?_
  unfold State.lineStarted
  rw [State.setParser_setParser]
  rfl

/-- Settles O39: an accepted header at its entry's place, and what DOUBLE adds to any header that starts a line. -/
theorem headersThatStartALine : Obligations.HeadersThatStartALine := by
  refine ⟨fun s sd slot h older younger e hb hdb hl hd hp => ?_, fun s sd slot h ln hd hl => ?_⟩
  · have place := State.placedAt_of_nodup hl hd
    have he : s.entry? h.piece = some e := hp ▸ place.entry?
    refine ⟨fun hlead ho hx hr => ?_, fun hlead hn hopen hold => ?_⟩
    · rw [State.takeHeader, State.checkHeader_counted hb he hlead ho hr, if_neg (by simp [hx])]
      simp only [State.acceptHeader_eq he, hdb, Bool.false_eq_true, if_false, place.lineStarted hp, hlead,
        State.zoneOpenIf, SideRecord.withLine, ho, reduceCtorEq]
    · rw [State.takeHeader, State.checkHeader_lead hb he hlead, if_pos hn]
      simp only [State.sideOpenHeader, State.truncateOpen_none hopen,
        State.markMissingSides_none (hp ▸ place.missingPieces hold), State.acceptHeader_eq he, hdb,
        Bool.false_eq_true, if_false, place.lineStarted hp, hlead, State.zoneOpenIf, if_true]
      rw [← hp, State.PlacedAt.zoneOpen (e := { e with sides := e.sides.set sd ((e.sides.get sd).withLine h) })
        (place.changed (by rfl) rfl)]
      simp only [SideRecord.withLine, hn, Header.index_of_lead hb hlead, if_true]
  · obtain ⟨t, e, he, ht⟩ := State.takeHeader_inLine hl
    have hh : h = { h with double := true } := by rw [← hd]
    rw [ht false] at hl ⊢
    rw [show s.takeHeader sd slot h = t.acceptHeader sd slot h from hh ▸ ht true]
    exact State.acceptHeader_double he hd hl

end Sys2Proof.Machine
end

section
/-! PROOF. O37: a LEAD header of an unknown piece (R6, R9, R11, R29, R70, R73, R75, R85). -/

namespace Sys2Proof.Machine

/-! ### The generation of an open (R75, R77) -/

theorem State.generationAtOpen_eq (s : State) :
    s.generationAtOpen = { s with gens := s.generationAtOpen.gens } := by
  unfold State.generationAtOpen
  split <;> rfl

theorem State.generationAtOpen_clean {s : State} (h : s.gens.dirty = false) : s.generationAtOpen.gens = s.gens := by
  simp [State.generationAtOpen, h]

/-- R75: a dirty set that finds two generations held stays as it is. -/
theorem State.generationAtOpen_full {s : State} (h : 2 ≤ s.heldNumbers.length) : s.generationAtOpen.gens = s.gens := by
  simp [State.generationAtOpen, Nat.not_lt.mpr h]

/-- R75, R77: a dirty set is applied, and of the others the held ones are kept. -/
theorem State.generationAtOpen_applied {s : State} (h : s.gens.dirty = true) (hf : s.heldNumbers.length < 2) :
    s.generationAtOpen.gens =
      { newest := { number := (s.gens.newest.number + 1) % 256, settings := s.gens.staged }
        older := (s.gens.older ++ [s.gens.newest]).filter fun g =>
          s.entries.any fun e => e.running && (e.generation == g.number)
        staged := s.gens.staged
        dirty := false } := by
  simp [State.generationAtOpen, h, hf, State.applyStaged, State.releaseGenerations, State.claims]

theorem State.heldNumbers_of_empty {s : State} (h : s.entries = []) : s.heldNumbers = [] := by
  simp [State.heldNumbers, State.claims, h]

theorem State.generationAtOpen_empty {s : State} (h : s.gens.dirty = true) (he : s.entries = []) :
    s.generationAtOpen.gens = s.gens.applied s.gens.staged := by
  rw [State.generationAtOpen_applied h (by simp [State.heldNumbers_of_empty he])]
  simp [Generations.applied, he]

/-! ### The open (R73) -/

theorem State.forceOut_eq_self {s : State} (h : s.entries.length < 12) : s.forceOut = s := by
  unfold State.forceOut
  split
  · rfl
  · exact if_neg (Nat.not_le.mpr h)

/-- R73: an open that finds room in the table. -/
theorem State.openEntry_eq {s : State} (h : s.entries.length < 12) (p : Nat) :
    s.openEntry p = { s with
      entries := s.entries ++ [Entry.fresh p s.generationAtOpen.gens.newest.number]
      gens := s.generationAtOpen.gens
      tally := { s.tally with opened := stepUp s.tally.opened } } := by
  unfold State.openEntry
  rw [State.forceOut_eq_self h, State.generationAtOpen_eq]
  simp only [State.countOpened, satInc_eq_stepUp]

/-- The state once a piece has opened under a generation with its first line in progress (R11, R29, R70, R73). -/
def State.pieceStarted (s : State) (sd : Side) (slot : Nat) (h : Header) (g : Nat) : State :=
  { s with
    entries := s.entries ++
      [{ Entry.fresh h.piece g with
         sides := (Entry.fresh h.piece g).sides.set sd
           { state := .opened, expected := 1, n := 0, faulted := 0, maxExtent := h.bottom - h.top } }]
    tally := { s.tally with opened := stepUp s.tally.opened }
    parsers := s.parsers.set sd (.inLine
      { piece := h.piece, x := 0, slot := slot, samples := h.samples, top := h.top, bottom := h.bottom
        lead := true, trail := h.trail, double := false, next := 0, inspecting := true })
    zones := s.zones.set sd
      { state := .leading, owner := some h.piece, line := none, tallies := LineTallies.zero, ring := [] } }

theorem SideRecord.notSeen_withLine {h : Header} (hi : h.index = 0) :
    SideRecord.notSeen.withLine h =
      { state := .opened, expected := 1, n := 0, faulted := 0, maxExtent := h.bottom - h.top } := by
  simp [SideRecord.withLine, SideRecord.notSeen, hi]

theorem Entry.fresh_side (p g : Nat) (sd : Side) : (Entry.fresh p g).sides.get sd = SideRecord.notSeen := by
  cases sd <;> rfl

/-- R9, R11, R73: a LEAD in RUN opens the piece and starts its line. -/
theorem State.newPieceHeader_run {s : State} {sd : Side} {slot : Nat} {h : Header} (hm : s.mode = .run)
    (hn : ∀ e ∈ s.entries, e.piece ≠ h.piece) (hopen : ∀ e ∈ s.entries, (e.sides.get sd).state ≠ .opened)
    (hroom : s.entries.length < 12) (hseen : ∀ e ∈ s.entries, (e.sides.get sd).state ≠ .notSeen)
    (hlead : h.lead = true) (hi : h.index = 0) (hd : h.double = false) :
    s.newPieceHeader sd slot h =
      { s.pieceStarted sd slot h s.generationAtOpen.gens.newest.number with gens := s.generationAtOpen.gens } := by
  unfold State.newPieceHeader
  simp only [State.truncateOpen_none hopen, if_pos hm, State.openEntry_eq hroom]
  generalize s.generationAtOpen.gens = gens
  have place : State.PlacedAt { s with
      entries := s.entries ++ [Entry.fresh h.piece gens.newest.number], gens := gens
      tally := { s.tally with opened := stepUp s.tally.opened } } s.entries
      (Entry.fresh h.piece gens.newest.number) [] := ⟨rfl, hn, fun _ hq => nomatch hq⟩
  refine (congrArg (State.acceptHeader sd slot h) (State.markMissingSides_none (place.missingPieces hseen))).trans ?_
  rw [State.acceptHeader_eq (h := h) place.entry?, if_neg (by simp [hd]), place.lineStarted rfl, hlead]
  refine (State.PlacedAt.zoneOpen (e := { Entry.fresh h.piece gens.newest.number with
    sides := (Entry.fresh h.piece gens.newest.number).sides.set sd
      (((Entry.fresh h.piece gens.newest.number).sides.get sd).withLine h) }) (place.changed (by rfl) rfl)).trans ?_
  simp only [Entry.fresh_side, SideRecord.notSeen_withLine hi, Header.line, hlead, hi, hd]
  rfl

/-- R9, R85: a LEAD in DRAIN is counted, unless it is the last such piece, and skipped. -/
theorem State.newPieceHeader_drain {s : State} {sd : Side} {slot : Nat} {h : Header} (hm : s.mode = .drain)
    (hopen : ∀ e ∈ s.entries, (e.sides.get sd).state ≠ .opened) :
    s.newPieceHeader sd slot h =
      if s.lastUninspected = some h.piece then s.skipped sd
      else ({ s with lastUninspected := some h.piece, tally := s.tally.counted 11 } : State).skipped sd := by
  unfold State.newPieceHeader
  simp only [State.truncateOpen_none hopen, hm, reduceCtorEq, if_false, State.countUninspected, State.count,
    TallyUnit.count_eq_counted]
  split <;> rfl

/-- Settles O37: by the mode, and in RUN by the staged set and the generations held. -/
theorem leadHeaderOpensOrCountsAPiece : Obligations.LeadHeaderOpensOrCountsAPiece := by
  intro s sd ring r bs hw hline ho hbeats hbytes h hsd h64 h512 htb hbs hlead hi hn hopen q started
  have hb : ¬h.Bad sd := by
    rintro (hx | hx | hx | hx | hx | ⟨_, hx⟩)
    · exact hx hsd
    · exact absurd h64 (Nat.not_le.mpr hx)
    · exact absurd h512 (Nat.not_le.mpr hx)
    · exact absurd htb (Nat.not_le.mpr hx)
    · exact absurd hbs (Nat.not_lt.mpr hx)
    · exact hx hi
  have hq : q.NoLine sd := hline
  have hnone : q.entry? h.piece = none := State.entry?_eq_none_iff.mpr hn
  have reaches {t : State} (e : q.newPieceHeader sd (ringSlot ring r) h = t) : exec (.imageWrite r) s = .next t := by
    refine hw.exec.trans (congrArg _ (.trans ?_ e))
    rw [State.takeImageWrite_readable hw.base_le ho hbeats hbytes, State.faultInLine_of_noLine hq, State.takeHeader,
      State.checkHeader_unknown hb hnone, if_pos hlead]
  have run (hm : s.mode = .run) (hd : h.double = false) (hroom : s.entries.length < 12)
      (hseen : ∀ e ∈ s.entries, (e.sides.get sd).state ≠ .notSeen) {gens : Generations}
      (hg : q.generationAtOpen.gens = gens) :
      exec (.imageWrite r) s = .next { started gens.newest.number with gens := gens } := by
    refine reaches ((State.newPieceHeader_run (s := q) hm hn hopen hroom hseen hlead hi hd).trans ?_)
    rw [hg]
    rfl
  refine ⟨fun hm hu => ?_, fun hm hu => ?_, fun hm hd hroom hseen hg => ?_, fun hm hd he hg => ?_,
    fun hm hd hroom hseen hg => ⟨fun hf => ?_, fun hf => ?_⟩⟩
  · exact reaches ((State.newPieceHeader_drain (s := q) hm hopen).trans (if_pos hu))
  · exact reaches ((State.newPieceHeader_drain (s := q) hm hopen).trans (if_neg hu))
  · exact run hm hd hroom hseen (State.generationAtOpen_clean (s := q) hg)
  · exact run hm hd (by simp [he]) (by simp [he]) (State.generationAtOpen_empty (s := q) hg he)
  · exact run hm hd hroom hseen (State.generationAtOpen_applied (s := q) hg hf)
  · exact run hm hd hroom hseen (State.generationAtOpen_full (s := q) hf)

end Sys2Proof.Machine
end

section
/-! PROOF. O40: the steps a LEAD header takes before it starts its line (R9, R73, R74, R76, R132). -/

namespace Sys2Proof.Machine

/-! ### A piece fault, at its entry's place -/

section PieceFaultAtPlace

variable {s : State} {older younger : List Entry} {e : Entry}

theorem State.PlacedAt.modifyEntry_of_piece {p : Nat} (hl : s.PlacedAt older e younger) (hp : e.piece = p)
    (f : Entry → Entry) : s.modifyEntry p f = { s with entries := older ++ f e :: younger } :=
  hp ▸ hl.modifyEntry f

/-- R77: the entries that claim a generation once the inspection of one has ended. -/
theorem any_claim_finished {e' : Entry} (h : e'.running = false) (n : Nat) :
    ((older ++ e' :: younger).any fun q => q.running && (q.generation == n)) =
      (older ++ younger).any fun q => q.running && (q.generation == n) := by
  simp [List.any_append, h]

/-- R21, R43, R77: the state a piece fault leaves when it ends an inspection. -/
theorem State.PlacedAt.pieceFault_running (hl : s.PlacedAt older e younger) (hr : e.running = true) (f : PieceFault) :
    s.pieceFault e.piece f =
      { s with
        entries := older ++ e.faultEnded f :: younger
        parsers := s.parsers.map (Parser.clearMark e.piece)
        zones := s.zones.map (ZoneWork.dropFor e.piece)
        gens := { s.gens with older := s.gens.older.filter fun g =>
          (older ++ younger).any fun q => q.running && (q.generation == g.number) } } := by
  rw [State.pieceFault_running hl.entry? hr, hl.modifyEntry]
  unfold State.finishInspection
  simp only []
  rw [State.PlacedAt.modifyEntry_of_piece (hl.changed (e.takeFault_piece f) (by rfl)) (e.takeFault_piece f)]
  simp only [State.releaseGenerations, State.claims, State.dropZoneWork]
  rw [State.PlacedAt.modifyEntry_of_piece (hl.changed (e' := { e.takeFault f with running := false }) (e.takeFault_piece f)
    (by rfl)) (e.takeFault_piece f)]
  simp only [any_claim_finished]
  rfl

theorem State.PlacedAt.pieceFault_finished (hl : s.PlacedAt older e younger) (hr : e.running = false) (f : PieceFault) :
    s.pieceFault e.piece f = { s with entries := older ++ e.takeFault f :: younger } := by
  rw [State.pieceFault_finished hl.entry? hr, hl.modifyEntry]

end PieceFaultAtPlace

/-! ### A side record changed, and its piece fault raised -/

/-- R9, R76: a side record is changed and a piece fault raised against its entry. -/
def State.faultSide (sd : Side) (g : SideRecord → SideRecord) (f : PieceFault) (piece : Nat) (s : State) : State :=
  (s.withSide sd piece g).pieceFault piece f

/-- The entry once a side record is changed and a piece fault raised. -/
def Entry.faultSide (sd : Side) (g : SideRecord → SideRecord) (f : PieceFault) (e : Entry) : Entry :=
  if e.running = true then (e.modifySide sd g).faultEnded f else (e.modifySide sd g).takeFault f

theorem Entry.faultSide_piece (sd : Side) (g : SideRecord → SideRecord) (f : PieceFault) (e : Entry) :
    (e.faultSide sd g f).piece = e.piece := by
  unfold Entry.faultSide Entry.faultEnded Entry.takeFault
  repeat' split
  all_goals rfl

theorem Entry.faultSide_side (sd : Side) (g : SideRecord → SideRecord) (f : PieceFault) (e : Entry) :
    (e.faultSide sd g f).sides.get sd = g (e.sides.get sd) := by
  have hs : (e.faultSide sd g f).sides = (e.modifySide sd g).sides := by
    unfold Entry.faultSide Entry.faultEnded Entry.takeFault
    repeat' split
    all_goals rfl
  rw [hs]
  simp [Entry.modifySide]

section FaultSide

variable {s : State} {older younger : List Entry} {e : Entry} {sd : Side} {g : SideRecord → SideRecord} {f : PieceFault}

theorem State.faultSide_inspect (s : State) (sd : Side) (g : SideRecord → SideRecord) (f : PieceFault) (piece : Nat) :
    InspectFrame s (s.faultSide sd g f piece) :=
  (s.modifyEntry_inspect piece fun e => e.modifySide_inspected sd g).trans (State.pieceFault_inspect _ _ _)

theorem State.PlacedAt.faultSide_running (hl : s.PlacedAt older e younger) (hr : e.running = true) :
    s.faultSide sd g f e.piece =
      { s with
        entries := older ++ e.faultSide sd g f :: younger
        parsers := s.parsers.map (Parser.clearMark e.piece)
        zones := s.zones.map (ZoneWork.dropFor e.piece)
        gens := { s.gens with older := s.gens.older.filter fun n =>
          (older ++ younger).any fun q => q.running && (q.generation == n.number) } } := by
  rw [State.faultSide, hl.withSide, Entry.faultSide, if_pos hr]
  exact (hl.changed (e' := e.modifySide sd g) (by rfl) (by rfl)).pieceFault_running hr f

theorem State.PlacedAt.faultSide_finished (hl : s.PlacedAt older e younger) (hr : e.running = false) :
    s.faultSide sd g f e.piece = { s with entries := older ++ e.faultSide sd g f :: younger } := by
  rw [State.faultSide, hl.withSide, Entry.faultSide, if_neg (by simp [hr])]
  exact (hl.changed (e' := e.modifySide sd g) (by rfl) (by rfl)).pieceFault_finished hr f

theorem State.PlacedAt.faultSide_entries (hl : s.PlacedAt older e younger) :
    (s.faultSide sd g f e.piece).entries = older ++ e.faultSide sd g f :: younger := by
  cases hr : e.running with
  | true => rw [hl.faultSide_running hr]
  | false => rw [hl.faultSide_finished hr]

/-- The entry of another piece stands. -/
theorem State.PlacedAt.entry?_faultSide_ne (hl : s.PlacedAt older e younger) {p : Nat} (hp : p ≠ e.piece) :
    (s.faultSide sd g f e.piece).entry? p = s.entry? p := by
  have place : (s.withSide sd e.piece g).PlacedAt older (e.modifySide sd g) younger :=
    hl.changed (by rfl) (by rw [hl.withSide]; rfl)
  exact (State.entry?_pieceFault_ne place.entry? f hp).trans (s.entry?_modifyEntry_ne (Entry.modifySide sd g) hp fun _ => rfl)

end FaultSide

/-! ### A LEAD of a side not yet seen -/

/-- R6, R9: such a header opens the piece or the side, by whether the piece has an entry; a state that agrees on the entry and
on what the open does takes the header alike. -/
theorem State.takeHeader_lead_congr {s t : State} {sd : Side} {slot : Nat} {h : Header} (hb : ¬h.Bad sd)
    (hl : h.lead = true) (hs : ∀ e, s.entry? h.piece = some e → (e.sides.get sd).state = .notSeen)
    (he : t.entry? h.piece = s.entry? h.piece)
    (hn : s.entry? h.piece = none → s.newPieceHeader sd slot h = t.newPieceHeader sd slot h)
    (ho : s.entry? h.piece ≠ none → s.sideOpenHeader sd slot h = t.sideOpenHeader sd slot h) :
    s.takeHeader sd slot h = t.takeHeader sd slot h := by
  unfold State.takeHeader
  cases hp : s.entry? h.piece with
  | none =>
    rw [State.checkHeader_unknown hb hp, State.checkHeader_unknown hb (he.trans hp), if_pos hl]
    exact hn hp
  | some e =>
    rw [State.checkHeader_lead hb hp hl, State.checkHeader_lead hb (he.trans hp) hl, if_pos (hs e hp)]
    exact ho (by simp [hp])

/-! ### The other side that is OPEN (R9) -/

/-- R9: TRUNCATED, at the count of its lines. -/
def SideRecord.truncated (q : SideRecord) : SideRecord :=
  { q with state := .truncated, n := q.expected }

theorem State.PlacedAt.truncateOpen {s : State} {older younger : List Entry} {o : Entry} {sd : Side} {piece : Nat}
    (hl : s.PlacedAt older o younger) (hp : o.piece ≠ piece) (ho : (o.sides.get sd).state = .opened)
    (hone : ∀ p ∈ older, (p.sides.get sd).state ≠ .opened) :
    s.truncateOpen sd piece = s.faultSide sd SideRecord.truncated .truncated o.piece := by
  have hfind : (s.entries.find? fun e => decide (e.piece ≠ piece) && decide ((e.sides.get sd).state = .opened)) = some o := by
    rw [hl.list, List.find?_append, List.find?_eq_none.mpr fun p hp => by simp [hone p hp], Option.none_or,
      List.find?_cons_of_pos (by simp [hp, ho])]
  unfold State.truncateOpen
  rw [hfind]
  rfl

/-! ### The force-out (R74) -/

/-- R74: an open that finds a full table retires the oldest as LOST, with its limit check. -/
theorem State.forceOut_full {s : State} {e : Entry} {rest : List Entry} (hl : s.PlacedAt [] e rest)
    (hf : s.entries.length = 12) (ht : s.tally.other = .free → s.NoTrayQueued) :
    s.forceOut = (s.departed (e.retired .lost) .lost rest).limitAsked.flagged 5 := by
  have hlist : s.entries = e :: rest := hl.list
  have hfull : tableCapacity ≤ (e :: rest).length := hlist ▸ hf.ge
  simp only [State.forceOut, hlist, if_pos hfull, State.retire_eq_departed hl ht]
  rfl

/-! ### The older sides that are NOT_SEEN (R76) -/

/-- R76: MISSING, with no line. -/
def SideRecord.missed (q : SideRecord) : SideRecord :=
  { q with state := .missing, n := 0 }

/-- R76: the oldest that is NOT_SEEN comes first. -/
theorem State.missingPieces_of_notSeen {s : State} {before after : List Entry} {o : Entry} {sd : Side} {piece : Nat}
    (hl : s.entries = before ++ o :: after)
    (hb : ∀ p ∈ before, p.piece ≠ piece ∧ (p.sides.get sd).state ≠ .notSeen) (hp : o.piece ≠ piece) :
    s.missingPieces sd piece = (if (o.sides.get sd).state = .notSeen then [o.piece] else []) ++
      ({ s with entries := after } : State).missingPieces sd piece := by
  have hbefore : (before.filter fun e => decide ((e.sides.get sd).state = .notSeen)) = [] :=
    List.filter_eq_nil_iff.mpr fun p hp => by simpa using (hb p hp).2
  unfold State.missingPieces
  rw [hl, List.takeWhile_append_of_pos (by simpa using fun p hp => (hb p hp).1), List.takeWhile_cons_of_pos (by simpa using hp),
    List.filter_append, hbefore, List.nil_append, List.filter_cons]
  by_cases ho : (o.sides.get sd).state = .notSeen <;> simp [ho]

/-- R76: the oldest is marked, and then the others. -/
theorem State.PlacedAt.markMissingSides {s : State} {before after : List Entry} {o : Entry} {sd : Side} {piece : Nat}
    (hl : s.PlacedAt before o after)
    (hb : ∀ p ∈ before, p.piece ≠ piece ∧ (p.sides.get sd).state ≠ .notSeen) (hp : o.piece ≠ piece)
    (ho : (o.sides.get sd).state = .notSeen) :
    s.markMissingSides sd piece = (s.faultSide sd SideRecord.missed .sideMissing o.piece).markMissingSides sd piece := by
  have hrest : (s.faultSide sd SideRecord.missed .sideMissing o.piece).missingPieces sd piece =
      ({ s with entries := after } : State).missingPieces sd piece := by
    rw [State.missingPieces_of_notSeen hl.faultSide_entries hb (by rwa [Entry.faultSide_piece]),
      if_neg (by simp [Entry.faultSide_side, SideRecord.missed])]
    rfl
  rw [State.markMissingSides, State.missingPieces_of_notSeen hl.list hb hp, if_pos ho, ← hrest]
  rfl

/-- The place of an entry once a piece opens. -/
theorem State.PlacedAt.opened {s t : State} {before after : List Entry} {o : Entry} {p n : Nat}
    (hl : s.PlacedAt before o after) (hp : o.piece ≠ p) (ht : t.entries = s.entries ++ [Entry.fresh p n] := by rfl) :
    t.PlacedAt before o (after ++ [Entry.fresh p n]) where
  list := by simp [ht, hl.list]
  older := hl.older
  younger q hq := (List.mem_append.mp hq).elim (hl.younger q) fun hq => List.mem_singleton.mp hq ▸ hp.symm

/-- R73, R76: the open of a piece in a table with room, the staged set being clean, leaves the older sides as they are, and
is left as it is by what is marked MISSING first. -/
theorem State.PlacedAt.openEntry_faultSide {s : State} {before after : List Entry} {o : Entry} {sd : Side} {piece : Nat}
    {g : SideRecord → SideRecord} {f : PieceFault} (hl : s.PlacedAt before o after) (hp : o.piece ≠ piece)
    (hroom : s.entries.length < 12) (hd : s.gens.dirty = false) (hn : ∀ n ∈ s.gens.older, n.number ≠ s.gens.newest.number) :
    (s.openEntry piece).faultSide sd g f o.piece = (s.faultSide sd g f o.piece).openEntry piece := by
  have hroom' : (s.faultSide sd g f o.piece).entries.length < 12 := by
    simpa [hl.faultSide_entries, hl.list] using hroom
  have hd' : (s.faultSide sd g f o.piece).gens.dirty = false := (s.faultSide_inspect sd g f o.piece).dirty.trans hd
  rw [State.openEntry_eq hroom, State.openEntry_eq hroom', State.generationAtOpen_clean hd,
    State.generationAtOpen_clean hd']
  have place : State.PlacedAt { s with
      entries := s.entries ++ [Entry.fresh piece s.gens.newest.number]
      tally := { s.tally with opened := stepUp s.tally.opened } } before o
      (after ++ [Entry.fresh piece s.gens.newest.number]) :=
    hl.opened hp
  cases hr : o.running with
  | false =>
    rw [hl.faultSide_finished hr]
    refine (place.faultSide_finished hr).trans ?_
    simp
  | true =>
    have claims : (s.gens.older.filter fun n => (before ++ (after ++ [Entry.fresh piece s.gens.newest.number])).any fun q =>
        q.running && (q.generation == n.number)) =
        s.gens.older.filter fun n => (before ++ after).any fun q => q.running && (q.generation == n.number) :=
      List.filter_congr fun n hm => by
        have : (s.gens.newest.number == n.number) = false := by simpa using (hn n hm).symm
        simp [List.any_append, Entry.fresh, this]
    rw [hl.faultSide_running hr]
    refine (place.faultSide_running hr).trans ?_
    simp only [claims, List.append_assoc, List.cons_append]

/-- Settles O40: each step leaves the piece's entry as it is, and is the first step of the open. -/
theorem leadHeadersTruncateForceOutAndMark : Obligations.LeadHeadersTruncateForceOutAndMark := by
  intro s sd slot h hb hl hnd hs
  refine ⟨fun o hmem hp ho hone => ?_, fun hopen => ⟨fun e rest hm hnone hlist hfull ht => ?_,
    fun before after o hlist hbef hp ho hcase => ?_⟩⟩
  · obtain ⟨older, younger, hlist⟩ := List.append_of_mem hmem
    have place := State.placedAt_of_nodup hlist hnd
    have first : ∀ p ∈ older, (p.sides.get sd).state ≠ .opened := fun p hm hx =>
      place.older p hm (hone p (hlist ▸ List.mem_append_left _ hm) hx)
    have rest : ∀ p ∈ younger, (p.sides.get sd).state ≠ .opened := fun p hm hx =>
      place.younger p hm (hone p (hlist ▸ List.mem_append_right _ (List.mem_cons_of_mem _ hm)) hx)
    have step := place.truncateOpen hp ho first
    have stays : (s.faultSide sd SideRecord.truncated .truncated o.piece).truncateOpen sd h.piece =
        s.faultSide sd SideRecord.truncated .truncated o.piece := by
      refine State.truncateOpen_none ?_ _
      rw [place.faultSide_entries, List.forall_mem_append, List.forall_mem_cons, Entry.faultSide_side]
      exact ⟨first, by simp [SideRecord.truncated], rest⟩
    refine State.takeHeader_lead_congr (t := s.faultSide sd SideRecord.truncated .truncated o.piece) hb hl hs
      (place.entry?_faultSide_ne hp.symm) (fun _ => ?_) fun _ => ?_
    · rw [State.newPieceHeader, State.newPieceHeader, step, stays]
    · rw [State.sideOpenHeader, State.sideOpenHeader, step, stays]
  · have place : s.PlacedAt [] e rest := State.placedAt_of_nodup hlist hnd
    have step := State.forceOut_full place hfull ht
    generalize htt : (s.departed (e.retired .lost) .lost rest).limitAsked.flagged 5 = t at step ⊢
    have hrest : t.entries = rest := by
      rw [← htt]
      exact (State.limitAsked_entries_eq _).trans (State.departed_entries_eq _ _ _ _)
    have hmode : t.mode = .run := by
      rw [← htt, ← hm]
      exact (State.limitAsked_mode _).trans (State.departed_mode _ _ _ _)
    have hsub : ∀ p ∈ t.entries, p ∈ s.entries := fun p hp => hlist ▸ List.mem_cons_of_mem _ (hrest ▸ hp)
    have hnone' : t.entry? h.piece = none :=
      State.entry?_eq_none_iff.mpr fun p hp => State.entry?_eq_none_iff.mp hnone p (hsub p hp)
    have hroom : t.entries.length < 12 := by
      rw [hlist, List.length_cons] at hfull
      rw [hrest]
      omega
    refine State.takeHeader_lead_congr hb hl hs (hnone'.trans hnone.symm) (fun _ => ?_) fun hx => absurd hnone hx
    have hopens : s.openEntry h.piece = t.openEntry h.piece := by
      rw [State.openEntry, State.openEntry, step, State.forceOut_eq_self hroom]
    simp only [State.newPieceHeader, State.truncateOpen_none hopen,
      State.truncateOpen_none fun p hp => hopen p (hsub p hp), if_pos hm, if_pos hmode, hopens]
  · have place := State.placedAt_of_nodup hlist hnd
    have frame := s.faultSide_inspect sd SideRecord.missed .sideMissing o.piece
    have hopen' : ∀ p ∈ (s.faultSide sd SideRecord.missed .sideMissing o.piece).entries,
        (p.sides.get sd).state ≠ .opened := by
      rw [hlist, List.forall_mem_append, List.forall_mem_cons] at hopen
      rw [place.faultSide_entries, List.forall_mem_append, List.forall_mem_cons, Entry.faultSide_side]
      exact ⟨hopen.1, by simp [SideRecord.missed], hopen.2.2⟩
    refine State.takeHeader_lead_congr (t := s.faultSide sd SideRecord.missed .sideMissing o.piece) hb hl hs
      (place.entry?_faultSide_ne hp.symm) (fun hnone => ?_) fun _ => ?_
    · obtain ⟨hm, hroom, hd, hn⟩ := hcase.resolve_left (absurd hnone)
      have opened : (s.openEntry h.piece).PlacedAt before o (after ++ [Entry.fresh h.piece s.gens.newest.number]) := by
        rw [State.openEntry_eq hroom, State.generationAtOpen_clean hd]
        exact place.opened hp
      simp only [State.newPieceHeader, State.truncateOpen_none hopen, State.truncateOpen_none hopen', frame.mode, if_pos hm,
        opened.markMissingSides hbef hp ho, place.openEntry_faultSide hp hroom hd hn]
    · rw [State.sideOpenHeader, State.sideOpenHeader, State.truncateOpen_none hopen, State.truncateOpen_none hopen',
        place.markMissingSides hbef hp ho]

end Sys2Proof.Machine
end

section
/-! SUPPORT. What an image write does is done without a look at the path unit: each operation it is made of does to a state
with another path unit what it does to the state, that path unit apart. -/

namespace Sys2Proof.Machine

/-- The state with another path unit. -/
def State.withPath (q : PathUnit) (s : State) : State := { s with path := q }

section WithPath

variable (s : State) (q : PathUnit)

@[simp] theorem State.withPath_mode : (s.withPath q).mode = s.mode := rfl
@[simp] theorem State.withPath_entries : (s.withPath q).entries = s.entries := rfl
@[simp] theorem State.withPath_gens : (s.withPath q).gens = s.gens := rfl
@[simp] theorem State.withPath_trays : (s.withPath q).trays = s.trays := rfl
@[simp] theorem State.withPath_tally : (s.withPath q).tally = s.tally := rfl
@[simp] theorem State.withPath_zones : (s.withPath q).zones = s.zones := rfl
@[simp] theorem State.withPath_parsers : (s.withPath q).parsers = s.parsers := rfl
@[simp] theorem State.withPath_entry? (p : Nat) : (s.withPath q).entry? p = s.entry? p := rfl
@[simp] theorem State.withPath_settingsOf (n : Nat) : (s.withPath q).settingsOf n = s.settingsOf n := rfl
@[simp] theorem State.withPath_heldNumbers : (s.withPath q).heldNumbers = s.heldNumbers := rfl
@[simp] theorem State.withPath_checkHeader (sd : Side) (h : Header) :
    (s.withPath q).checkHeader sd h = s.checkHeader sd h := rfl

@[simp] theorem State.ite_withPath (c : Prop) [Decidable c] (t u : State) :
    (if c then t.withPath q else u.withPath q) = (if c then t else u).withPath q :=
  (apply_ite (State.withPath q) c t u).symm

/-! ### Changes that ask nothing -/

@[simp] theorem State.modifyEntry_withPath (p : Nat) (f : Entry → Entry) :
    (s.withPath q).modifyEntry p f = (s.modifyEntry p f).withPath q := rfl
@[simp] theorem State.setParser_withPath (sd : Side) (p : Parser) :
    (s.withPath q).setParser sd p = (s.setParser sd p).withPath q := rfl
@[simp] theorem State.setZone_withPath (sd : Side) (z : ZoneWork) :
    (s.withPath q).setZone sd z = (s.setZone sd z).withPath q := rfl
@[simp] theorem State.raise_withPath (f : Flag) : (s.withPath q).raise f = (s.raise f).withPath q := rfl
@[simp] theorem State.finishInspection_withPath (p : Nat) :
    (s.withPath q).finishInspection p = (s.finishInspection p).withPath q := rfl
@[simp] theorem State.dropZoneWork_withPath (p : Nat) :
    (s.withPath q).dropZoneWork p = (s.dropZoneWork p).withPath q := rfl
@[simp] theorem State.removeEntry_withPath (p : Nat) : (s.withPath q).removeEntry p = (s.removeEntry p).withPath q := rfl
@[simp] theorem State.applyStaged_withPath : (s.withPath q).applyStaged = s.applyStaged.withPath q := rfl
@[simp] theorem State.count_withPath (k : Fin 12) : (s.withPath q).count k = (s.count k).withPath q := rfl

@[simp] theorem State.raiseIf_withPath (b : Bool) (f : Flag) :
    (s.withPath q).raiseIf b f = (s.raiseIf b f).withPath q := by
  cases b <;> rfl

/-! ### One piece's inspection -/

@[simp] theorem State.pieceFault_withPath (p : Nat) (f : PieceFault) :
    (s.withPath q).pieceFault p f = (s.pieceFault p f).withPath q := by
  simp only [State.pieceFault, State.withPath_entry?]
  cases s.entry? p with
  | none => rfl
  | some e => simp

@[simp] theorem State.faultLimitCheck_withPath (p : Nat) :
    (s.withPath q).faultLimitCheck p = (s.faultLimitCheck p).withPath q := by
  simp only [State.faultLimitCheck, State.withPath_entry?]
  cases s.entry? p with
  | none => rfl
  | some e => simp

@[simp] theorem State.leadingNotice_withPath (sd : Side) (p : Nat) :
    (s.withPath q).leadingNotice sd p = (s.leadingNotice sd p).withPath q := by
  simp only [State.leadingNotice, State.withPath_entry?]
  cases s.entry? p with
  | none => rfl
  | some e => simp

@[simp] theorem State.closedNotice_withPath (p : Nat) :
    (s.withPath q).closedNotice p = (s.closedNotice p).withPath q := by
  simp only [State.closedNotice, State.withPath_entry?]
  cases s.entry? p with
  | none => rfl
  | some e => simp

@[simp] theorem State.completeLeading_withPath (sd : Side) (p : Nat) (st : Settings) :
    (s.withPath q).completeLeading sd p st = (s.completeLeading sd p st).withPath q := by
  simp [State.completeLeading]

@[simp] theorem State.handLine_withPath (sd : Side) (p x extent : Nat) (b : Bool) :
    (s.withPath q).handLine sd p x extent b = (s.handLine sd p x extent b).withPath q := by
  simp only [State.handLine, State.withPath_entry?]
  cases s.entry? p with
  | none => rfl
  | some e =>
    by_cases hidle : (s.zones.get sd).state = .idle
    · simp [hidle]
    · by_cases hadd : (s.zones.get sd).state = .leading ∧ b = false ∧ x < (s.settingsOf e.generation).geometry.zw <;>
        by_cases hend : (s.zones.get sd).state = .leading ∧ (s.settingsOf e.generation).geometry.zw ≤ x + 1 <;>
          simp [hidle, hadd, hend]

@[simp] theorem State.handSample_withPath (sd : Side) (ln : Line) (w : Nat) :
    (s.withPath q).handSample sd ln w = (s.handSample sd ln w).withPath q := by
  simp only [State.handSample, State.withPath_entry?]
  cases s.entry? ln.piece with
  | none => rfl
  | some e => rfl

@[simp] theorem State.zoneClose_withPath (sd : Side) (p n : Nat) (st : Settings) :
    (s.withPath q).zoneClose sd p n st = (s.zoneClose sd p n st).withPath q := by
  simp [State.zoneClose]

@[simp] theorem State.sideClose_withPath (sd : Side) (p x : Nat) :
    (s.withPath q).sideClose sd p x = (s.sideClose sd p x).withPath q := by
  simp only [State.sideClose, State.withPath_entry?]
  cases s.entry? p with
  | none => rfl
  | some e => simp

@[simp] theorem State.zoneOpen_withPath (sd : Side) (p : Nat) :
    (s.withPath q).zoneOpen sd p = (s.zoneOpen sd p).withPath q := by
  simp only [State.zoneOpen, State.withPath_entry?]
  cases s.entry? p with
  | none => rfl
  | some e => simp

/-! ### Retirement and the open of a piece -/

@[simp] theorem State.formPieceRecord_withPath (e : Entry) (d : Disposition) :
    (s.withPath q).formPieceRecord e d = (s.formPieceRecord e d).withPath q := by
  simp only [State.formPieceRecord, ← State.ite_withPath]
  rfl

@[simp] theorem State.applyTraySetIfDirty_withPath :
    (s.withPath q).applyTraySetIfDirty = s.applyTraySetIfDirty.withPath q := by
  simp only [State.applyTraySetIfDirty, ← State.ite_withPath]
  rfl

@[simp] theorem State.joinTrayRecord_withPath : (s.withPath q).joinTrayRecord = s.joinTrayRecord.withPath q := by
  simp only [State.joinTrayRecord, State.withPath_tally]
  cases s.tally.other with
  | free => rfl
  | sealed counts data =>
    simp only [← State.ite_withPath]
    rfl
  | writing => rfl

@[simp] theorem State.executeClose_withPath (reason : CloseReason) (mark : SealMark) :
    (s.withPath q).executeClose reason mark = (s.executeClose reason mark).withPath q := by
  have h (t : State) : (t.withPath q).applyTraySetIfDirty.joinTrayRecord = t.applyTraySetIfDirty.joinTrayRecord.withPath q := by
    simp
  exact h { s with tally := _ }

@[simp] theorem State.requestClose_withPath (reason : CloseReason) :
    (s.withPath q).requestClose reason = (s.requestClose reason).withPath q := by
  simp only [State.requestClose, State.withPath_tally, State.executeClose_withPath]
  cases s.tally.other with
  | free => rfl
  | sealed counts data => cases s.tally.pending <;> rfl
  | writing => cases s.tally.pending <;> rfl

@[simp] theorem State.limitCheck_withPath : (s.withPath q).limitCheck = s.limitCheck.withPath q := by
  simp [State.limitCheck]

@[simp] theorem State.retire_withPath (cause : RetireCause) (p : Nat) :
    (s.withPath q).retire cause p = (s.retire cause p).withPath q := by
  simp only [State.retire, State.withPath_entry?]
  cases s.entry? p with
  | none => rfl
  | some e => simp

@[simp] theorem State.forceOut_withPath : (s.withPath q).forceOut = s.forceOut.withPath q := by
  simp only [State.forceOut, State.withPath_entries]
  split
  · rfl
  · simp

@[simp] theorem State.generationAtOpen_withPath : (s.withPath q).generationAtOpen = s.generationAtOpen.withPath q := by
  simp [State.generationAtOpen]

@[simp] theorem State.openEntry_withPath (p : Nat) : (s.withPath q).openEntry p = (s.openEntry p).withPath q := by
  simp only [State.openEntry, State.forceOut_withPath, State.generationAtOpen_withPath]
  rfl

@[simp] theorem State.countUninspected_withPath (p : Nat) :
    (s.withPath q).countUninspected p = (s.countUninspected p).withPath q := by
  simp only [State.countUninspected, ← State.ite_withPath]
  rfl

@[simp] theorem State.markMissing_withPath (sd : Side) (p : Nat) :
    (s.withPath q).markMissing sd p = (s.markMissing sd p).withPath q := by
  simp [State.markMissing]

/-- What every step of a fold does without a look at the path unit, the fold does. -/
theorem State.foldl_withPath {α : Type} {f : State → α → State} (hf : ∀ s x, f (s.withPath q) x = (f s x).withPath q)
    (l : List α) : l.foldl f (s.withPath q) = (l.foldl f s).withPath q := by
  induction l generalizing s with
  | nil => rfl
  | cons x xs ih => rw [List.foldl_cons, List.foldl_cons, hf, ih]

@[simp] theorem State.markMissingSides_withPath (sd : Side) (p : Nat) :
    (s.withPath q).markMissingSides sd p = (s.markMissingSides sd p).withPath q :=
  s.foldl_withPath q (fun s p => s.markMissing_withPath q sd p) _

/-! ### Headers -/

@[simp] theorem State.truncateOpen_withPath (sd : Side) (p : Nat) :
    (s.withPath q).truncateOpen sd p = (s.truncateOpen sd p).withPath q := by
  simp only [State.truncateOpen, State.withPath_entries]
  split <;> simp

@[simp] theorem State.overlong_withPath (sd : Side) (p : Nat) :
    (s.withPath q).overlong sd p = (s.overlong sd p).withPath q := by
  simp [State.overlong]

@[simp] theorem State.handFaulted_withPath (sd : Side) (p x extent : Nat) (b : Bool) :
    (s.withPath q).handFaulted sd p x extent b = (s.handFaulted sd p x extent b).withPath q := by
  cases b <;> simp [State.handFaulted]

@[simp] theorem State.malformedHeader_withPath (sd : Side) (h : Header) :
    (s.withPath q).malformedHeader sd h = (s.malformedHeader sd h).withPath q := by
  simp only [State.malformedHeader, State.raise_withPath, State.setParser_withPath, State.withPath_entry?]
  split
  · rfl
  · simp

@[simp] theorem State.strayHeader_withPath (sd : Side) (b : Bool) (h : Header) :
    (s.withPath q).strayHeader sd b h = (s.strayHeader sd b h).withPath q := by
  simp only [State.strayHeader, State.raiseIf_withPath, State.setParser_withPath]
  rfl

@[simp] theorem State.lineLimitHeader_withPath (sd : Side) (h : Header) :
    (s.withPath q).lineLimitHeader sd h = (s.lineLimitHeader sd h).withPath q := by
  simp [State.lineLimitHeader]

@[simp] theorem State.mismatchHeader_withPath (sd : Side) (h : Header) :
    (s.withPath q).mismatchHeader sd h = (s.mismatchHeader sd h).withPath q := by
  simp only [State.mismatchHeader, State.raise_withPath, State.withPath_entry?]
  split
  · rfl
  · repeat' split
    all_goals simp

@[simp] theorem State.acceptHeader_withPath (sd : Side) (slot : Nat) (h : Header) :
    (s.withPath q).acceptHeader sd slot h = (s.acceptHeader sd slot h).withPath q := by
  simp only [State.acceptHeader, State.withPath_entry?]
  cases s.entry? h.piece with
  | none => rfl
  | some e => cases h.lead <;> cases h.double <;> simp

@[simp] theorem State.newPieceHeader_withPath (sd : Side) (slot : Nat) (h : Header) :
    (s.withPath q).newPieceHeader sd slot h = (s.newPieceHeader sd slot h).withPath q := by
  simp [State.newPieceHeader]

@[simp] theorem State.sideOpenHeader_withPath (sd : Side) (slot : Nat) (h : Header) :
    (s.withPath q).sideOpenHeader sd slot h = (s.sideOpenHeader sd slot h).withPath q := by
  simp [State.sideOpenHeader]

@[simp] theorem State.takeHeader_withPath (sd : Side) (slot : Nat) (h : Header) :
    (s.withPath q).takeHeader sd slot h = (s.takeHeader sd slot h).withPath q := by
  simp only [State.takeHeader, State.withPath_checkHeader]
  cases s.checkHeader sd h <;> simp

/-! ### Lines and beats -/

@[simp] theorem State.closeIfTrail_withPath (sd : Side) (ln : Line) :
    (s.withPath q).closeIfTrail sd ln = (s.closeIfTrail sd ln).withPath q := by
  simp [State.closeIfTrail]

@[simp] theorem State.completeLine_withPath (sd : Side) (ln : Line) :
    (s.withPath q).completeLine sd ln = (s.completeLine sd ln).withPath q := by
  cases hi : ln.inspecting <;> simp [State.completeLine, hi]

@[simp] theorem State.faultLine_withPath (sd : Side) (ln : Line) :
    (s.withPath q).faultLine sd ln = (s.faultLine sd ln).withPath q := by
  simp [State.faultLine]

@[simp] theorem State.takeSample_withPath (sd : Side) (w : Nat) :
    State.takeSample sd (s.withPath q) w = (State.takeSample sd s w).withPath q := by
  simp only [State.takeSample, State.withPath_parsers]
  split
  · rename_i ln _
    cases hi : ln.inspecting <;> simp
  · rfl

@[simp] theorem State.takeBeat_withPath (sd : Side) (r : Request) (aligned : Bool) (slotBase b : Nat) :
    State.takeBeat sd r aligned slotBase (s.withPath q) b = (State.takeBeat sd r aligned slotBase s b).withPath q := by
  simp only [State.takeBeat, State.withPath_parsers]
  repeat' split
  all_goals simp [State.foldl_withPath _ q fun s w => s.takeSample_withPath q sd w]

@[simp] theorem State.faultInLine_withPath (sd : Side) :
    (s.withPath q).faultInLine sd = (s.faultInLine sd).withPath q := by
  simp only [State.faultInLine, State.withPath_parsers]
  split <;> simp

@[simp] theorem State.headerWrite_withPath (sd : Side) (r : Request) (aligned : Bool) (slotBase slot : Nat) :
    (s.withPath q).headerWrite sd r aligned slotBase slot = (s.headerWrite sd r aligned slotBase slot).withPath q := by
  simp only [State.headerWrite, State.faultInLine_withPath]
  split <;> simp

@[simp] theorem State.faultStraySlot_withPath (sd : Side) (slot : Nat) :
    (s.withPath q).faultStraySlot sd slot = (s.faultStraySlot sd slot).withPath q := by
  simp only [State.faultStraySlot, State.withPath_parsers]
  split
  · simp
  · rfl

/-- R2, R171: an image write. -/
theorem State.takeImageWrite_withPath (sd : Side) (base : Nat) (r : Request) :
    (s.withPath q).takeImageWrite sd base r = (s.takeImageWrite sd base r).withPath q := by
  have beats (t : State) (aligned : Bool) (slotBase : Nat) := t.foldl_withPath q fun s b =>
    s.takeBeat_withPath q sd r aligned slotBase b
  simp only [State.takeImageWrite, State.headerWrite_withPath, State.faultStraySlot_withPath, beats, State.ite_withPath]

end WithPath

end Sys2Proof.Machine
end

section
/-! PROOF. O42: an image write beat by beat, and off a beat's boundary (R2, R5, R12 to R14, R16). -/

namespace Sys2Proof.Machine

/-! ### Bytes that two writes agree on -/

theorem writtenBytes_congr {r r' : Request} {a n : Nat} (h : ∀ i < n, writtenAt r (a + i) = writtenAt r' (a + i)) :
    writtenBytes r a n = writtenBytes r' a n := by
  induction n generalizing a with
  | zero => rfl
  | succ n ih =>
    have htail : writtenBytes r (a + 1) n = writtenBytes r' (a + 1) n := ih fun i hi => by
      rw [show a + 1 + i = a + (i + 1) by omega]
      exact h (i + 1) (by omega)
    have hhead : writtenAt r a = writtenAt r' a := h 0 (by omega)
    rw [writtenBytes, writtenBytes, hhead, htail]

/-- R2: a beat is taken by its own eight bytes. -/
theorem State.takeBeat_congr {r r' : Request} {slotBase b : Nat}
    (h : ∀ i < 8, writtenAt r (slotBase + b + i) = writtenAt r' (slotBase + b + i)) (sd : Side) (aligned : Bool)
    (s : State) : State.takeBeat sd r aligned slotBase s b = State.takeBeat sd r' aligned slotBase s b := by
  have hbytes {n : Nat} (hn : n ≤ 8) : writtenBytes r (slotBase + b) n = writtenBytes r' (slotBase + b) n :=
    writtenBytes_congr fun i hi => h i (by omega)
  have hsamples (samples : Nat) :
      beatSamples r aligned samples b (slotBase + b) = beatSamples r' aligned samples b (slotBase + b) := by
    unfold beatSamples
    simp only []
    rw [hbytes (by split <;> omega)]
  unfold State.takeBeat
  simp only [hsamples]

/-- R5: a header is taken by its own sixteen bytes. -/
theorem State.headerWrite_congr {r r' : Request} {slotBase : Nat}
    (h : ∀ i < 16, writtenAt r (slotBase + i) = writtenAt r' (slotBase + i)) (sd : Side) (aligned : Bool) (slot : Nat)
    (s : State) : s.headerWrite sd r aligned slotBase slot = s.headerWrite sd r' aligned slotBase slot := by
  unfold State.headerWrite
  rw [writtenBytes_congr h]

/-! ### The slot of the line in progress (R13) -/

/-- A side has no line in progress, or one of a given slot. -/
def State.LineOfSlot (s : State) (sd : Side) (slot : Nat) : Prop := ∀ ln, s.parsers.get sd = .inLine ln → ln.slot = slot

section LineOfSlot

variable {s : State} {sd : Side} {slot : Nat}

theorem State.NoLine.lineOfSlot (h : s.NoLine sd) : s.LineOfSlot sd slot := fun ln hl => absurd hl (h ln)

/-- R13: the beats of that slot find no line of another. -/
theorem State.LineOfSlot.faultStraySlot (h : s.LineOfSlot sd slot) : s.faultStraySlot sd slot = s := by
  by_cases hn : s.NoLine sd
  · exact State.faultStraySlot_of_noLine hn slot
  · obtain ⟨ln, hl⟩ := not_forall_not.mp hn
    rw [State.faultStraySlot_inLine hl, if_neg (not_not.mpr (h ln hl))]

theorem State.lineOfSlot_faultStraySlot (s : State) (sd : Side) (slot : Nat) :
    (s.faultStraySlot sd slot).LineOfSlot sd slot := by
  by_cases hn : s.NoLine sd
  · rw [State.faultStraySlot_of_noLine hn]
    exact hn.lineOfSlot
  · obtain ⟨ln, hl⟩ := not_forall_not.mp hn
    rw [State.faultStraySlot_inLine hl]
    split
    · exact (s.noLine_lineFaulted sd ln).lineOfSlot
    · rename_i hs
      intro ln' hl'
      rw [hl] at hl'
      exact Parser.inLine.inj hl' ▸ not_not.mp hs

theorem State.lineOfSlot_setParser (s : State) (sd : Side) {ln : Line} (h : ln.slot = slot) :
    (s.setParser sd (.inLine ln)).LineOfSlot sd slot := fun ln' hl => by
  rw [State.parsers_setParser] at hl
  exact Parser.inLine.inj hl ▸ h

theorem State.LineOfSlot.takeSample (h : s.LineOfSlot sd slot) (w : Nat) : (State.takeSample sd s w).LineOfSlot sd slot := by
  unfold State.takeSample
  split
  · rename_i ln hl
    simp only []
    split
    · exact (State.noLine_completeLine _ sd _).lineOfSlot
    · exact State.lineOfSlot_setParser _ sd (h ln hl)
  · exact h

theorem State.LineOfSlot.takeBeat (h : s.LineOfSlot sd slot) (r : Request) (aligned : Bool) (slotBase b : Nat) :
    (State.takeBeat sd r aligned slotBase s b).LineOfSlot sd slot := by
  have faulted (ln : Line) : (s.faultLine sd ln).LineOfSlot sd slot := (s.noLine_faultLine sd ln).lineOfSlot
  unfold State.takeBeat
  split
  · split
    · exact faulted _
    · split
      · exact h
      · split
        · split
          · exact foldl_keeps (P := fun t : State => t.LineOfSlot sd slot) (fun _ w ht => ht.takeSample w) _ h
          · exact faulted _
        · exact faulted _
  · exact h

theorem State.LineOfSlot.pieceFault (h : s.LineOfSlot sd slot) (p : Nat) (f : PieceFault) :
    (s.pieceFault p f).LineOfSlot sd slot := by
  cases he : s.entry? p with
  | none => rwa [State.pieceFault, he]
  | some e =>
    intro ln hl
    rw [State.pieceFault_parsers he] at hl
    split at hl
    · cases hp : s.parsers.get sd with
      | inLine ln' =>
        rw [hp, Parser.clearMark] at hl
        rw [← Parser.inLine.inj hl, ← h ln' hp]
        split <;> rfl
      | waitHeader => simp [hp, Parser.clearMark] at hl
      | skipping => simp [hp, Parser.clearMark] at hl
    · exact h ln hl

/-- R11: the line of an accepted header is a line of the slot it was written to. -/
theorem State.lineOfSlot_acceptHeader {h : Header} {e : Entry} (he : s.entry? h.piece = some e) :
    (s.acceptHeader sd slot h).LineOfSlot sd slot := by
  have started : (s.lineStarted sd slot h e).LineOfSlot sd slot := State.lineOfSlot_setParser _ sd rfl
  rw [State.acceptHeader_eq he]
  split
  · exact started.pieceFault h.piece .double
  · exact started

theorem State.lineOfSlot_takeHeader (s : State) (sd : Side) (slot : Nat) (h : Header) :
    (s.takeHeader sd slot h).LineOfSlot sd slot := by
  intro ln hl
  obtain ⟨t, e, he, ht⟩ := State.takeHeader_inLine hl
  exact State.lineOfSlot_acceptHeader he ln (ht h.double ▸ hl)

theorem State.lineOfSlot_headerWrite (s : State) (sd : Side) (r : Request) (aligned : Bool) (slotBase slot : Nat) :
    (s.headerWrite sd r aligned slotBase slot).LineOfSlot sd slot := by
  unfold State.headerWrite
  simp only []
  split
  · exact State.lineOfSlot_takeHeader _ sd slot _
  · exact (State.noLine_skipped _ sd).lineOfSlot

/-- R13: an image write leaves no line in progress of another slot. -/
theorem State.lineOfSlot_takeImageWrite {ring : Ring} {r : Request} (h : ring.base ≤ reqLo r) (s : State) (sd : Side) :
    (s.takeImageWrite sd ring.base r).LineOfSlot sd (ringSlot ring r) := by
  have beats (aligned : Bool) (slotBase : Nat) (l : List Nat) {t : State} :
      t.LineOfSlot sd (ringSlot ring r) → (l.foldl (State.takeBeat sd r aligned slotBase) t).LineOfSlot sd (ringSlot ring r) :=
    foldl_keeps (P := fun t : State => t.LineOfSlot sd (ringSlot ring r)) (fun _ b ht => ht.takeBeat r aligned slotBase b) l
  by_cases ho : ringOffset ring r < 8
  · rw [State.takeImageWrite_header h ho]
    exact beats _ _ _ (s.lineOfSlot_headerWrite sd r _ _ _)
  · rw [State.takeImageWrite_beats h (by omega)]
    exact beats _ _ _ (s.lineOfSlot_faultStraySlot sd _)

end LineOfSlot

/-! ### An aligned write, cut -/

theorem mem_beatOffsets {r : Request} {f b : Nat} : b ∈ beatOffsets r f true ↔ ∃ i < r.beats, f + 8 * i = b := by
  simp [beatOffsets]

/-- R2: the beats of a write are those of its two parts. -/
theorem beatOffsets_append {n : Nat} {r : Request} (h : n ≤ r.beats) (f : Nat) :
    beatOffsets r f true = beatOffsets (beatsTo n r) f true ++ beatOffsets (beatsFrom n r) (f + 8 * n) true := by
  have hr : r.beats = n + (r.beats - n) := by omega
  simp only [beatOffsets, if_true, beatsTo, beatsFrom]
  rw [hr, List.range_add, List.map_append, List.map_map, Nat.add_sub_cancel_left]
  refine congrArg _ (List.map_congr_left fun i _ => ?_)
  simp only [Function.comp_apply]
  omega

section Cut

variable {s : State} {sd : Side} {ring : Ring} {r : Request} {n : Nat}

/-- R2: an aligned write of one slot, cut where both parts have a beat. -/
structure CutAt (ring : Ring) (r : Request) (n : Nat) : Prop where
  base    : ring.base ≤ reqLo r
  aligned : ringOffset ring r % 8 = 0
  first   : 1 ≤ n
  rest    : n < r.beats
  slot    : ringOffset ring r + 8 * r.beats ≤ 4096
  word    : reqLo r + 8 * n < 4294967296

namespace CutAt

theorem reqLo_from (c : CutAt ring r n) : reqLo (beatsFrom n r) = reqLo r + 8 * n := reqLo_beatsFrom c.word

theorem slot_from (c : CutAt ring r n) : ringSlot ring (beatsFrom n r) = ringSlot ring r := by
  have hlo := c.reqLo_from
  have hbase := c.base
  have hslot := c.slot
  have hrest := c.rest
  unfold ringOffset at hslot
  unfold ringSlot
  omega

theorem offset_from (c : CutAt ring r n) : ringOffset ring (beatsFrom n r) = ringOffset ring r + 8 * n := by
  have hlo := c.reqLo_from
  have hbase := c.base
  have hslot := c.slot
  have hrest := c.rest
  unfold ringOffset at hslot ⊢
  omega

theorem slotBase_from (c : CutAt ring r n) : ringSlotBase ring (beatsFrom n r) = ringSlotBase ring r := by
  rw [ringSlotBase, ringSlotBase, c.slot_from]

/-- R2: the beats of the first part, as beats of the whole. -/
theorem foldl_to (c : CutAt ring r n) {l : List Nat} (h : ∀ b ∈ l, b < ringOffset ring r + 8 * n)
    (h8 : ∀ b ∈ l, b % 8 = 0) :
    l.foldl (State.takeBeat sd (beatsTo n r) true (ringSlotBase ring r)) s =
      l.foldl (State.takeBeat sd r true (ringSlotBase ring r)) s := by
  have hbase := ringSlotBase_add_ringOffset c.base
  have ha := c.aligned
  refine List.foldl_ext _ _ _ fun t b hb => State.takeBeat_congr (fun i hi => writtenAt_beatsTo ?_) sd true t
  have := h b hb
  have := h8 b hb
  omega

/-- R2: the beats of the second part, as beats of the whole. -/
theorem foldl_from (c : CutAt ring r n) {l : List Nat} (h : ∀ b ∈ l, ringOffset ring r + 8 * n ≤ b) :
    l.foldl (State.takeBeat sd (beatsFrom n r) true (ringSlotBase ring r)) s =
      l.foldl (State.takeBeat sd r true (ringSlotBase ring r)) s := by
  have hbase := ringSlotBase_add_ringOffset c.base
  refine List.foldl_ext _ _ _ fun t b hb => State.takeBeat_congr (fun i hi => writtenAt_beatsFrom c.word ?_) sd true t
  have := h b hb
  omega

/-- R13: the second part, after a write to the same slot. -/
theorem takeImageWrite_from (c : CutAt ring r n) (h : s.LineOfSlot sd (ringSlot ring r)) :
    s.takeImageWrite sd ring.base (beatsFrom n r) =
      (beatOffsets (beatsFrom n r) (ringOffset ring r + 8 * n) true).foldl
        (State.takeBeat sd r true (ringSlotBase ring r)) s := by
  have ha := c.aligned
  have hfirst := c.first
  have hbase : ring.base ≤ reqLo (beatsFrom n r) := by
    have := c.base
    rw [c.reqLo_from]
    omega
  have hdiv : (ringOffset ring r + 8 * n) / 8 * 8 = ringOffset ring r + 8 * n := by omega
  have hmod : (ringOffset ring r + 8 * n) % 8 = 0 := by omega
  rw [State.takeImageWrite_beats hbase (by rw [c.offset_from]; omega), c.slot_from, h.faultStraySlot, c.slotBase_from,
    c.offset_from, hdiv, decide_eq_true hmod, c.foldl_from]
  intro b hb
  obtain ⟨i, _, rfl⟩ := mem_beatOffsets.mp hb
  omega

/-- R2, R5, R13: a write is its two parts, cut anywhere but inside a header. -/
theorem takeImageWrite (c : CutAt ring r n) (hh : ringOffset ring r = 0 → 2 ≤ n) :
    s.takeImageWrite sd ring.base r =
      (s.takeImageWrite sd ring.base (beatsTo n r)).takeImageWrite sd ring.base (beatsFrom n r) := by
  have ha := c.aligned
  have hto : ringOffset ring (beatsTo n r) = ringOffset ring r := rfl
  have hlow : ∀ b ∈ beatOffsets (beatsTo n r) (ringOffset ring r) true, b < ringOffset ring r + 8 * n ∧ b % 8 = 0 := by
    intro b hb
    obtain ⟨i, hi, rfl⟩ := mem_beatOffsets.mp hb
    have : i < n := hi
    omega
  rw [c.takeImageWrite_from (State.lineOfSlot_takeImageWrite (r := beatsTo n r) c.base s sd)]
  by_cases ho : ringOffset ring r < 8
  · have h0 : ringOffset ring r = 0 := by omega
    have hbase := ringSlotBase_add_ringOffset c.base
    have hheader := State.headerWrite_congr (r := beatsTo n r) (r' := r) (slotBase := ringSlotBase ring r)
      (fun i hi => writtenAt_beatsTo (by have := hh h0; omega)) sd true (ringSlot ring r) s
    have hlen : 2 ≤ (beatOffsets (beatsTo n r) 0 true).length := by simpa [beatOffsets, beatsTo] using hh h0
    rw [h0] at hlow
    rw [State.takeImageWrite_header c.base ho, State.takeImageWrite_header (r := beatsTo n r) c.base ho, hto, h0,
      decide_eq_true (Nat.zero_mod 8), beatOffsets_append c.rest.le, List.drop_append_of_le_length hlen, List.foldl_append,
      ← hheader, ← c.foldl_to (fun b hb => h0 ▸ (hlow b (List.mem_of_mem_drop hb)).1)
        fun b hb => (hlow b (List.mem_of_mem_drop hb)).2]
    rfl
  · have hdiv : ringOffset ring r / 8 * 8 = ringOffset ring r := by omega
    rw [State.takeImageWrite_beats c.base (by omega), State.takeImageWrite_beats (r := beatsTo n r) c.base (by omega), hto,
      hdiv, decide_eq_true ha, beatOffsets_append c.rest.le, List.foldl_append,
      ← c.foldl_to (fun b hb => (hlow b hb).1) fun b hb => (hlow b hb).2]
    rfl

end CutAt

end Cut

/-! ### The parts as image writes that are accepted (R1) -/

theorem Request.wellFormedAs_write_iff {r : Request} :
    r.wellFormedAs .write = true ↔ 1 ≤ r.beats ∧ r.beats ≤ 32 ∧ r.payload.length = 8 * r.beats ∧ r.kind = .write := by
  unfold Request.wellFormedAs Request.wellFormed
  cases r.kind <;> simp [and_assoc]

theorem State.takeImageWrite_mode (s : State) (sd : Side) (base : Nat) (r : Request) :
    (s.takeImageWrite sd base r).mode = s.mode := by
  have k : KeptByInspection fun t => t.mode = s.mode :=
    { inspect := fun _ _ f h => f.mode.trans h
      opens := fun t p _ _ h => (t.openEntry_mode p).trans h
      counts := fun t p h => by
        unfold State.countUninspected
        split <;> exact h }
  exact k.takeImageWrite sd base r rfl

section Accepted

variable {s : State} {sd : Side} {ring : Ring} {r : Request} {n : Nat}

/-- R160: a ring begins at a slot boundary of the memory. -/
theorem State.ImageWriteAccepted.base_aligned (h : s.ImageWriteAccepted sd ring r) : ring.base % 4096 = 0 := by
  obtain ⟨m, hm, rfl⟩ := h.map
  have := (Bool.and_eq_true_iff.mp (h.placed.map m hm).2).1
  simp only [MemoryMap.extents, List.all_cons, Bool.and_eq_true, decide_eq_true_eq] at this
  cases sd
  · exact this.1
  · exact this.2.1

theorem State.ImageWriteAccepted.cutAt (h : s.ImageWriteAccepted sd ring r) (ha : ringOffset ring r % 8 = 0)
    (h1 : 1 ≤ n) (hn : n < r.beats) : CutAt ring r n := by
  have hbase := h.base_le
  have hal := h.base_aligned
  have hpage := h.page
  have hlt : reqLo r < 4294967296 := r.addr.isLt
  have hhi : reqHi r = reqLo r + 8 * r.beats := rfl
  simp only [reqCrosses, ne_eq, decide_eq_false_iff_not, not_not] at hpage
  refine ⟨hbase, ha, h1, hn, ?_, ?_⟩
  · unfold ringOffset
    omega
  · omega

/-- R1: the first part is an image write that is accepted. -/
theorem State.ImageWriteAccepted.firstBeats (h : s.ImageWriteAccepted sd ring r) (h1 : 1 ≤ n) (hn : n < r.beats) :
    s.ImageWriteAccepted sd ring (beatsTo n r) := by
  obtain ⟨_, h32, hlen, hkind⟩ := Request.wellFormedAs_write_iff.mp h.form
  have hin := h.inside
  have hpage := h.page
  have hhi : reqHi r = reqLo r + 8 * r.beats := rfl
  have hlo' := reqLo_beatsTo n r
  have hhi' := reqHi_beatsTo n r
  simp only [reqInside, Bool.and_eq_true, decide_eq_true_eq] at hin
  simp only [reqCrosses, ne_eq, decide_eq_false_iff_not, not_not] at hpage
  refine ⟨h.placed, Request.wellFormedAs_write_iff.mpr ⟨h1, ?_, ?_, hkind⟩, h.mode, h.map, h.head, ?_, ?_, h.room⟩
  · show n ≤ 32
    omega
  · show (r.payload.take (8 * n)).length = 8 * n
    rw [List.length_take, hlen]
    omega
  · simp only [reqInside, Bool.and_eq_true, decide_eq_true_eq]
    omega
  · simp only [reqCrosses, ne_eq, decide_eq_false_iff_not, not_not]
    omega

/-- R1: so is the second, in any state with the setup, the mode and the path unit of the first. -/
theorem State.ImageWriteAccepted.otherBeats (h : s.ImageWriteAccepted sd ring r) (c : CutAt ring r n) {t : State}
    (hs : t.setup = s.setup) (hm : t.mode = s.mode) (hp : t.path = s.path) :
    t.ImageWriteAccepted sd ring (beatsFrom n r) := by
  obtain ⟨_, h32, hlen, hkind⟩ := Request.wellFormedAs_write_iff.mp h.form
  have hlo := c.reqLo_from
  have hrest := c.rest
  have hin := h.inside
  have hpage := h.page
  have hhi : reqHi r = reqLo r + 8 * r.beats := rfl
  have hhi' : reqHi (beatsFrom n r) = reqLo (beatsFrom n r) + 8 * (r.beats - n) := rfl
  simp only [reqInside, Bool.and_eq_true, decide_eq_true_eq] at hin
  simp only [reqCrosses, ne_eq, decide_eq_false_iff_not, not_not] at hpage
  refine ⟨⟨?_, ?_, ?_⟩, Request.wellFormedAs_write_iff.mpr ⟨?_, ?_, ?_, hkind⟩, hm ▸ h.mode, hs ▸ h.map, hs ▸ h.head, ?_, ?_, ?_⟩
  · rw [hs, hm]
    exact h.placed.running
  · rw [hs]
    exact h.placed.map
  · rw [hs]
    exact h.placed.sources
  · show 1 ≤ r.beats - n
    omega
  · show r.beats - n ≤ 32
    omega
  · show (r.payload.drop (8 * n)).length = 8 * (r.beats - n)
    rw [List.length_drop, hlen]
    omega
  · simp only [reqInside, Bool.and_eq_true, decide_eq_true_eq]
    omega
  · simp only [reqCrosses, ne_eq, decide_eq_false_iff_not, not_not]
    omega
  · have hroom := h.room
    unfold State.AcceptsAtOnce State.hasRoom State.laneOf at hroom ⊢
    rwa [hs, hp]

/-- R171: the request is queued, and the rest of what it does is done without a look at the queues. -/
theorem State.ImageWriteAccepted.exec_withPath (h : s.ImageWriteAccepted sd ring r) :
    Machine.exec (.imageWrite r) s = .next ((s.takeImageWrite sd ring.base r).withPath (s.queued r []).path) :=
  h.exec.trans (congrArg _ (s.takeImageWrite_withPath (s.queued r []).path sd ring.base r))

end Accepted

/-! ### A write off a beat's boundary -/

/-- R14: with every beat beyond the samples, a write is only forwarded. -/
theorem State.foldl_takeBeat_beyond {s : State} {sd : Side} {ln : Line} (hl : s.parsers.get sd = .inLine ln) (r : Request)
    (aligned : Bool) (slotBase : Nat) {l : List Nat} (h : ∀ b ∈ l, 16 + 4 * ln.samples ≤ b) :
    l.foldl (State.takeBeat sd r aligned slotBase) s = s := by
  induction l with
  | nil => rfl
  | cons b l ih =>
    obtain ⟨hb, hrest⟩ := List.forall_mem_cons.mp h
    rw [List.foldl_cons, State.takeBeat_beyond hl (by omega) hb, ih hrest]

/-- R2, R13: an unaligned write to the slot of the line in progress. -/
theorem State.takeImageWrite_unaligned {s : State} {sd : Side} {ring : Ring} {r : Request} {ln : Line}
    (h : ring.base ≤ reqLo r) (ho : 8 ≤ ringOffset ring r) (hu : ringOffset ring r % 8 ≠ 0)
    (hl : s.parsers.get sd = .inLine ln) (hs : ln.slot = ringSlot ring r) :
    s.takeImageWrite sd ring.base r =
      if ringOffset ring r / 8 * 8 < 16 + 4 * ln.samples then s.lineFaulted sd ln else s := by
  rw [State.takeImageWrite_beats h ho, State.faultStraySlot_inLine hl, if_neg (not_not.mpr hs), decide_eq_false hu]
  split
  · rename_i hin
    have hfirst : State.takeBeat sd r false (ringSlotBase ring r) s (ringOffset ring r / 8 * 8) = s.lineFaulted sd ln := by
      by_cases h16 : ringOffset ring r / 8 * 8 < 16
      · exact State.takeBeat_header hl h16 false
      · exact State.takeBeat_faulted hl (by omega) hin (.inr (by simp [beatSamples]))
    have hbeats : beatOffsets r (ringOffset ring r / 8 * 8) false =
        ringOffset ring r / 8 * 8 :: (List.range r.beats).map fun i => ringOffset ring r / 8 * 8 + 8 * (i + 1) := by
      simp [beatOffsets, List.range_succ_eq_map, Function.comp_def]
    rw [hbeats, List.foldl_cons, hfirst]
    exact State.foldl_takeBeat_of_noLine (s.noLine_lineFaulted sd ln) _ _ _ _
  · rename_i hout
    refine State.foldl_takeBeat_beyond hl r false _ fun b hb => ?_
    obtain ⟨i, _, rfl⟩ := List.mem_map.mp hb
    omega

/-- Settles O42: an aligned write at its cut, an unaligned one by where it begins. -/
theorem imageWritesAreTakenBeatByBeat : Obligations.ImageWritesAreTakenBeatByBeat := by
  refine ⟨fun s sd ring r n h ha h1 hn hh => ?_, fun s sd ring r h hu => ?_⟩
  · have c := h.cutAt ha h1 hn
    have frame := s.takeImageWrite_track sd ring.base (beatsTo n r)
    have hfrom := h.otherBeats c (t := (s.takeImageWrite sd ring.base (beatsTo n r)).withPath s.path) frame.setup
      (State.takeImageWrite_mode _ sd ring.base _) rfl
    refine ⟨_, _, (h.firstBeats h1 hn).exec_withPath, hfrom.exec_withPath, h.exec_withPath.trans (congrArg _ ?_)⟩
    rw [c.takeImageWrite hh, State.takeImageWrite_withPath]
    rfl
  · intro q o
    have hb := h.base_le
    have reaches {t : State} (e : q.takeImageWrite sd ring.base r = t) : exec (.imageWrite r) s = .next t :=
      h.exec.trans (congrArg _ e)
    refine ⟨fun ho hn => reaches (State.takeImageWrite_noLine hb ho hn), fun ln ho hl => reaches ?_,
      fun ho hn => reaches ?_, fun ln ho hl => reaches ?_⟩
    · have hq : q.parsers.get sd = .inLine ln := hl
      by_cases hs : ln.slot = ringSlot ring r
      · rw [State.takeImageWrite_unaligned hb ho hu hq hs]
        simp only [hs, ne_eq, not_true_eq_false, false_or]
        rfl
      · rw [State.takeImageWrite_stray hb ho hq hs, if_pos (.inl hs)]
    · have hq : q.NoLine sd := hn
      rw [State.takeImageWrite_unreadable hb ho (.inl hu), State.faultInLine_of_noLine hq]
    · have hq : q.parsers.get sd = .inLine ln := hl
      rw [State.takeImageWrite_unreadable hb ho (.inl hu), State.faultInLine_inLine hq]

end Sys2Proof.Machine
end

section
/-! PROOF. O43: line handovers, the history ring and the LEAD records (R30, R32 to R36). -/

namespace Sys2Proof.Machine

/-! ### The line that is handed over -/

/-- R30, R33: the tallies a line is handed over with. -/
def ZoneWork.handedTallies (piece x : Nat) (faulted : Bool) (z : ZoneWork) : LineTallies :=
  if faulted then LineTallies.zero else z.talliesOf piece x

theorem ZoneWork.handedTallies_eq (z : ZoneWork) (piece x : Nat) (faulted : Bool) :
    z.handedTallies piece x faulted =
      if faulted = false ∧ z.line = some (piece, x) then z.tallies else LineTallies.zero := by
  cases faulted
  · simp [ZoneWork.handedTallies, ZoneWork.talliesOf]
  · simp [ZoneWork.handedTallies]

/-- R36: the ring entry of a line that is handed over. -/
def ZoneWork.handedEntry (piece x extent : Nat) (faulted : Bool) (z : ZoneWork) : RingEntry :=
  { x := x, faulted := faulted, extent := extent, tallies := z.handedTallies piece x faulted }

/-- R36: the ring keeps the newest 256 entries. -/
theorem ZoneWork.pushRing_ring (q : RingEntry) (z : ZoneWork) : (z.pushRing q).ring = newestLines (z.ring ++ [q]) := by
  have hlen : (z.ring ++ [q]).length = z.ring.length + 1 := List.length_append
  unfold ZoneWork.pushRing newestLines ringCapacity
  rw [hlen]
  by_cases h : z.ring.length < 256
  · rw [Nat.sub_eq_zero_of_le h]
    simp [h]
  · rw [List.drop_append_of_le_length (by omega)]
    simp [h]

/-- R32, R33: a side's zone work, in state `zs`, once the line is its ring's newest and the tally set is zeroed. -/
def ZoneWork.handed (zs : ZoneState) (piece x extent : Nat) (faulted : Bool) (z : ZoneWork) : ZoneWork :=
  { state := zs, owner := z.owner, line := none, tallies := LineTallies.zero
    ring := newestLines (z.ring ++ [z.handedEntry piece x extent faulted]) }

theorem ZoneWork.zeroTallies_pushRing (z : ZoneWork) (zs : ZoneState) (piece x extent : Nat) (faulted : Bool) :
    { (z.pushRing (z.handedEntry piece x extent faulted)).zeroTallies with state := zs } =
      z.handed zs piece x extent faulted := by
  unfold ZoneWork.handed
  rw [← ZoneWork.pushRing_ring]
  rfl

theorem ZoneWork.zeroTallies_pushRing_same {z : ZoneWork} {zs : ZoneState} (h : z.state = zs) (piece x extent : Nat)
    (faulted : Bool) : (z.pushRing (z.handedEntry piece x extent faulted)).zeroTallies =
      z.handed zs piece x extent faulted := by
  subst h
  exact z.zeroTallies_pushRing z.state piece x extent faulted

/-! ### The leading completion, told before or after the tally set is zeroed -/

theorem State.setZone_entry? (s : State) (sd : Side) (z : ZoneWork) (p : Nat) :
    (s.setZone sd z).entry? p = s.entry? p := rfl

theorem State.setZone_settingsOf (s : State) (sd : Side) (z : ZoneWork) (n : Nat) :
    (s.setZone sd z).settingsOf n = s.settingsOf n := rfl

theorem State.modifyEntry_setZone (s : State) (sd : Side) (z : ZoneWork) (p : Nat) (f : Entry → Entry) :
    (s.setZone sd z).modifyEntry p f = (s.modifyEntry p f).setZone sd z := rfl

theorem State.setZone_setZone (s : State) (sd : Side) (y z : ZoneWork) :
    (s.setZone sd y).setZone sd z = s.setZone sd z := by
  simp only [State.setZone, PerSide.set_set]

theorem State.zones_setZone_same (s : State) (sd : Side) (z : ZoneWork) : (s.setZone sd z).zones.get sd = z :=
  PerSide.get_set_same _ _ _

theorem State.raiseIf_setZone (s : State) (sd : Side) (z : ZoneWork) (b : Bool) (f : Flag) :
    (s.setZone sd z).raiseIf b f = (s.raiseIf b f).setZone sd z := by
  cases b <;> rfl

/-- R61: the decision unit does not look at the zone work. -/
theorem State.leadingNotice_setZone (s : State) (sd sd' : Side) (z : ZoneWork) (p : Nat) :
    (s.setZone sd' z).leadingNotice sd p = (s.leadingNotice sd p).setZone sd' z := by
  simp only [State.leadingNotice, State.setZone_entry?]
  cases s.entry? p with
  | none => rfl
  | some e =>
    simp only [State.setZone_settingsOf, State.setZone_trays, State.modifyEntry_setZone, State.raiseIf_setZone]

/-- R32, R35: once the leading zones are complete, zeroing the tally set is as good as done before. -/
theorem State.completeLeading_zeroTallies (s : State) (sd : Side) (p : Nat) (st : Settings) :
    (s.completeLeading sd p st).setZone sd ((s.completeLeading sd p st).zones.get sd).zeroTallies =
      ((s.setZone sd { (s.zones.get sd).zeroTallies with state := .body }).modifyEntry p
        (Entry.completeEnd st sd .lead)).leadingNotice sd p := by
  rw [State.completeLeading_zones, PerSide.get_set_same, State.completeLeading, ← State.leadingNotice_setZone,
    State.setZone_setZone]
  rfl

/-! ### The handover -/

/-- R32, R34: a state with the line added to its side's LEAD corners, if it is unfaulted and within the zone. -/
def State.leadAdded (st : Settings) (sd : Side) (piece x extent : Nat) (faulted : Bool) (q : LineTallies) (t : State) :
    State :=
  if faulted = false ∧ x < st.geometry.zw then t.withPiece piece (Entry.addLine st sd .lead x extent q) else t

theorem State.leadAdded_setZone (st : Settings) (sd sd' : Side) (piece x extent : Nat) (faulted : Bool) (q : LineTallies)
    (t : State) (z : ZoneWork) : (t.setZone sd' z).leadAdded st sd piece x extent faulted q =
      (t.leadAdded st sd piece x extent faulted q).setZone sd' z := by
  unfold State.leadAdded
  split <;> rfl

section Handover

variable {s : State} {sd : Side} {piece x extent : Nat} {faulted : Bool} {e : Entry}

theorem State.handLine_idle (hz : (s.zones.get sd).state = .idle) : s.handLine sd piece x extent faulted = s := by
  unfold State.handLine
  split
  · rfl
  · exact if_pos hz

/-- R32, R33: in BODY the line goes to the ring alone. -/
theorem State.handLine_body (he : s.entry? piece = some e) (hz : (s.zones.get sd).state = .body) :
    s.handLine sd piece x extent faulted = s.setZone sd ((s.zones.get sd).handed .body piece x extent faulted) := by
  rw [← ZoneWork.zeroTallies_pushRing_same hz]
  unfold State.handLine
  simp only [he, hz, reduceCtorEq, false_and, if_false, State.zones_setZone_same, State.setZone_setZone]
  rfl

/-- R32, R33: a line taken while the leading zones are not complete. -/
theorem State.handLine_of_leading (he : s.entry? piece = some e) (hz : (s.zones.get sd).state = .leading) :
    s.handLine sd piece x extent faulted =
      let st := s.settingsOf e.generation
      let z := s.zones.get sd
      let t := (s.leadAdded st sd piece x extent faulted (z.handedTallies piece x faulted)).setZone sd
        (z.pushRing (z.handedEntry piece x extent faulted))
      let u := if st.geometry.zw ≤ x + 1 then t.completeLeading sd piece st else t
      u.setZone sd (u.zones.get sd).zeroTallies := by
  unfold State.handLine
  simp only [he, hz, reduceCtorEq, true_and, if_false, ← State.leadAdded_setZone]
  rfl

/-- R32, R33: a line short of the zone's last. -/
theorem State.handLine_leading (he : s.entry? piece = some e) (hz : (s.zones.get sd).state = .leading)
    (hx : x + 1 < (s.settingsOf e.generation).geometry.zw) :
    s.handLine sd piece x extent faulted =
      (s.setZone sd ((s.zones.get sd).handed .leading piece x extent faulted)).leadAdded
        (s.settingsOf e.generation) sd piece x extent faulted ((s.zones.get sd).handedTallies piece x faulted) := by
  rw [State.handLine_of_leading he hz]
  simp only [if_neg (Nat.not_le_of_lt hx), State.zones_setZone_same, State.setZone_setZone,
    ZoneWork.zeroTallies_pushRing_same hz, State.leadAdded_setZone]

/-- R35: a line at or beyond the zone's last completes the leading zones. -/
theorem State.handLine_completes (he : s.entry? piece = some e) (hz : (s.zones.get sd).state = .leading)
    (hx : (s.settingsOf e.generation).geometry.zw ≤ x + 1) :
    s.handLine sd piece x extent faulted =
      (((s.setZone sd ((s.zones.get sd).handed .body piece x extent faulted)).leadAdded
        (s.settingsOf e.generation) sd piece x extent faulted
          ((s.zones.get sd).handedTallies piece x faulted)).withPiece piece
            (Entry.completeEnd (s.settingsOf e.generation) sd .lead)).leadingNotice sd piece := by
  rw [State.handLine_of_leading he hz, State.leadAdded_setZone]
  simp only [if_pos hx, State.completeLeading_zeroTallies, State.zones_setZone_same, State.setZone_setZone,
    ZoneWork.zeroTallies_pushRing]
  rfl

end Handover

/-! ### Lines of a zone record -/

/-- R34, R42: a DONE record takes no line. -/
theorem ZoneRecord.addLine_done {z : ZoneRecord} (h : z.done = true) (x extent : Nat) (q : Tally) :
    z.addLine x extent q = z := if_pos h

/-- R34: what a line adds to a record that is not DONE. -/
theorem ZoneRecord.addLine_notDone {z : ZoneRecord} (h : z.done = false) (x extent : Nat) (q : Tally) :
    z.addLine x extent q =
      { z with lines := z.lines + 1, hits := z.hits + q.h, overs := z.overs + q.overs, xsum := z.xsum + x * q.h
               ysum := z.ysum + q.ysum, esum := z.esum + extent } :=
  if_neg (by simp [h])

/-- Settles O43: by the state of the side's zone work and the line's place in the zone, then record by record. -/
theorem lineHandoversFillRingAndLeadZones : Obligations.LineHandoversFillRingAndLeadZones := by
  refine ⟨fun s sd piece x extent faulted e he => ?_,
    fun st sd en x extent q e k => ⟨e.addLine_zonesOnly st sd en x extent q,
      fun ed => e.addLine_zone st sd en x extent q ed k, fun c hc => e.addLine_zone_other st sd en x extent q hc k⟩,
    fun st sd en e k => ⟨e.completeEnd_zonesOnly st sd en, fun ed => e.completeEnd_zone st sd en ed k,
      fun c hc => e.completeEnd_zone_other st sd en hc k⟩,
    fun x extent q z => ⟨fun h => ZoneRecord.addLine_done h x extent q,
      fun h => ZoneRecord.addLine_notDone h x extent q⟩⟩
  intro st z q taken added
  have hq : z.handedTallies piece x faulted = q := z.handedTallies_eq piece x faulted
  refine ⟨State.handLine_idle, fun hs => ?_, fun hs hx => ?_, fun hs hx => ?_⟩
  · rw [State.handLine_body he hs, ZoneWork.handed, ZoneWork.handedEntry, hq]
    rfl
  · rw [State.handLine_leading he hs hx, ZoneWork.handed, ZoneWork.handedEntry, hq]
    rfl
  · rw [State.handLine_completes he hs hx, ZoneWork.handed, ZoneWork.handedEntry, hq]
    rfl

end Sys2Proof.Machine
end

section
/-! PROOF. O56: the result of a zone record, from the lines it is built of (R34, R38 to R41). -/

namespace Sys2Proof.Machine

/-! ### The record that lines build -/

/-- R34: a record that is not DONE counts each line of a list. -/
theorem ZoneRecord.foldl_addLine (lines : List (Nat × Nat × Tally)) : ∀ {z : ZoneRecord}, z.done = false →
    lines.foldl (fun z q => z.addLine q.1 q.2.1 q.2.2) z =
      { z with
        lines := z.lines + lines.length
        hits := z.hits + (lines.map fun q => q.2.2.h).sum
        overs := z.overs + (lines.map fun q => q.2.2.overs).sum
        xsum := z.xsum + (lines.map fun q => q.1 * q.2.2.h).sum
        ysum := z.ysum + (lines.map fun q => q.2.2.ysum).sum
        esum := z.esum + (lines.map fun q => q.2.1).sum } := by
  induction lines with
  | nil => exact fun _ => rfl
  | cons q lines ih =>
    intro z h
    rw [List.foldl_cons, ZoneRecord.addLine_notDone h, ih (by exact h)]
    simp only [List.length_cons, List.map_cons, List.sum_cons, Nat.add_assoc, Nat.add_comm 1]

/-- R38 to R40: the result of a record that holds a line. -/
theorem ZoneRecord.complete_notDone {z : ZoneRecord} (t : ClassTest) (h : z.done = false) (hl : z.lines ≠ 0) :
    z.complete t =
      { z with
        done := true
        present := decide (t.minLines ≤ z.lines) && decide (t.minHits ≤ z.hits)
        score := min 65535 (z.hits * t.weight / 16)
        xc := (2 * z.xsum + z.hits) / (2 * z.hits)
        yc := (2 * z.ysum + z.hits) / (2 * z.hits)
        e := (2 * z.esum + z.lines) / (2 * z.lines) } := by
  simp only [ZoneRecord.complete, h, hl, Bool.false_eq_true, if_false]

/-! ### Bounds (R41) -/

/-- R40: a mean rounded half up lies between bounds of its terms. -/
theorem halfUp_between {n d lo hi : Nat} (hd : 0 < d) (hlo : lo * d ≤ n) (hhi : n ≤ hi * d) :
    lo ≤ (2 * n + d) / (2 * d) ∧ (2 * n + d) / (2 * d) ≤ hi := by
  have hd2 : 0 < 2 * d := Nat.mul_pos two_pos hd
  constructor
  · rw [Nat.le_div_iff_mul_le hd2]
    linarith
  · rw [← Nat.lt_succ_iff, Nat.div_lt_iff_lt_mul hd2]
    linarith

/-- The sum of terms that lie between multiples of their weights lies between the same multiples of the weights' sum. -/
theorem sum_between {α : Type} {l : List α} {f w : α → Nat} {lo hi : Nat}
    (h : ∀ a ∈ l, lo * w a ≤ f a ∧ f a ≤ hi * w a) :
    lo * (l.map w).sum ≤ (l.map f).sum ∧ (l.map f).sum ≤ hi * (l.map w).sum := by
  rw [← List.sum_map_mul_left, ← List.sum_map_mul_left]
  exact ⟨List.sum_le_sum fun a ha => (h a ha).1, List.sum_le_sum fun a ha => (h a ha).2⟩

/-- R40, R41: so does the weighted mean, rounded half up. -/
theorem weightedMean_between {α : Type} {l : List α} {f w : α → Nat} {lo hi : Nat} (hl : l ≠ [])
    (hw : ∀ a ∈ l, 1 ≤ w a) (h : ∀ a ∈ l, lo * w a ≤ f a ∧ f a ≤ hi * w a) :
    lo ≤ (2 * (l.map f).sum + (l.map w).sum) / (2 * (l.map w).sum) ∧
      (2 * (l.map f).sum + (l.map w).sum) / (2 * (l.map w).sum) ≤ hi := by
  have hpos : 0 < (l.map w).sum := by
    obtain ⟨a, ha⟩ := List.exists_mem_of_ne_nil l hl
    exact (hw a ha).trans (List.le_sum_of_mem (List.mem_map_of_mem ha))
  obtain ⟨hlo, hhi⟩ := sum_between h
  exact halfUp_between hpos hlo hhi

/-- Settles O56: the record is built and completed by R34 and R38 to R40, and each result is a weighted mean: x_c and
y_c by the hits of the lines, e by the lines. -/
theorem zoneResultsStayWithinTheirLines : Obligations.ZoneResultsStayWithinTheirLines := by
  intro t lines xLo xHi yLo yHi eLo eHi hne hb z hits
  have hbuilt := ZoneRecord.foldl_addLine lines (z := ZoneRecord.empty) rfl
  simp only [ZoneRecord.empty, Nat.zero_add] at hbuilt
  have hz : z = _ := (congrArg (ZoneRecord.complete t) hbuilt).trans
    (ZoneRecord.complete_notDone t rfl (List.length_pos_of_ne_nil hne).ne')
  have hhit : ∀ q ∈ lines, 1 ≤ q.2.2.h := fun q hq => by
    obtain ⟨-, -, -, -, hh, -⟩ := hb q hq
    exact hh
  have hx := weightedMean_between (f := fun q => q.1 * q.2.2.h) hne hhit fun q hq => by
    obtain ⟨hlo, hhi, -⟩ := hb q hq
    exact ⟨Nat.mul_le_mul_right _ hlo, Nat.mul_le_mul_right _ hhi⟩
  have hy := weightedMean_between (f := fun q => q.2.2.ysum) hne hhit fun q hq => by
    obtain ⟨-, -, -, -, -, hy⟩ := hb q hq
    exact hy
  have he := weightedMean_between (l := lines) (f := fun q => q.2.1) (w := fun _ => 1) (lo := eLo) (hi := eHi) hne
    (fun _ _ => le_rfl) fun q hq => by
      obtain ⟨-, -, hlo, hhi, -⟩ := hb q hq
      simpa using ⟨hlo, hhi⟩
  rw [List.map_const', List.sum_replicate_nat, Nat.mul_one] at he
  rw [hz]
  refine ⟨rfl, rfl, rfl, rfl, ?_, rfl, rfl, rfl, rfl, hx.1, hx.2, hy.1, hy.2, he.1, he.2⟩
  rw [Bool.and_eq_true, decide_eq_true_eq, decide_eq_true_eq]

end Sys2Proof.Machine
end

section
/-! PROOF. O15: the state that pin reset leaves (R183, R167, R24, R47, R79, R135). -/

namespace Sys2Proof.Machine

/-- R183, R167: what PIN_RESET leaves; the queue of waiting commands stays. -/
theorem exec_pinReset (straps : BitVec 16) (s : State) :
    exec (.pinReset straps) s = .next { State.resetWith straps with pending := s.pending } := rfl

/-- R79: every channel is read uncorrected. -/
theorem Settings.default_correction (sd : Side) : Settings.default.correction.get sd = Correction.unity := by
  cases sd <;> rfl

/-- Settles O15: field by field of the reset state, then the default settings and the default tray set. -/
theorem pinResetLeavesTheStatedState : Obligations.PinResetLeavesTheStatedState := by
  refine ⟨fun straps s => ⟨_, exec_pinReset straps s, ?_⟩, Settings.default_correction, rfl, rfl, rfl, rfl⟩
  exact ⟨rfl, rfl, rfl, rfl, rfl, rfl, rfl, rfl, rfl, rfl, rfl, rfl, rfl, rfl, rfl, rfl, rfl, rfl, rfl⟩

end Sys2Proof.Machine
end

section
/-! PROOF. O57: the candidate list, its order, and the verdict read from it (R49 to R53). -/

namespace Sys2Proof.Machine

/-! ### The candidate list (R49) -/

theorem mem_zonePairs (c : Corner) (k : Cls) : (c, k) ∈ zonePairs := by
  refine List.mem_flatMap.mpr ⟨c, List.mem_finRange c, ?_⟩
  cases k <;> simp

theorem zonePairs_nodup : zonePairs.Nodup := by decide

/-- R49: the candidates are the records that are DONE and present. -/
theorem Entry.mem_candidates {e : Entry} {c : Candidate} : c ∈ e.candidates ↔
    c.zone = e.zone c.corner c.cls ∧ c.zone.done = true ∧ c.zone.present = true := by
  simp only [Entry.candidates, List.mem_filterMap, Option.ite_none_right_eq_some, Option.some.injEq,
    Bool.and_eq_true]
  constructor
  · rintro ⟨p, -, hz, rfl⟩
    exact ⟨rfl, hz⟩
  · rintro ⟨hz, hd⟩
    exact ⟨(c.corner, c.cls), mem_zonePairs _ _, hz ▸ hd, by rw [← hz]⟩

/-- R49: no pair enters twice, since a candidate names its corner and class. -/
theorem Entry.candidates_nodup (e : Entry) : e.candidates.Nodup := by
  refine zonePairs_nodup.filterMap fun p q c hp hq => ?_
  simp only [Option.mem_def, Option.ite_none_right_eq_some, Option.some.injEq] at hp hq
  obtain ⟨-, rfl⟩ := hp
  obtain ⟨-, hq⟩ := hq
  injection hq with hcorner hcls
  exact Prod.ext hcorner.symm hcls.symm

/-! ### The order of the candidates (R50) -/

/-- R50: a candidate does not come after another by rank, then score, then corner. -/
def Candidate.NotAfter (ranks : PerClass Nat) (a b : Candidate) : Prop :=
  ranks.get a.cls < ranks.get b.cls ∨ (ranks.get a.cls = ranks.get b.cls ∧
    (b.zone.score < a.zone.score ∨ (a.zone.score = b.zone.score ∧ a.corner ≤ b.corner)))

section Order

variable {ranks : PerClass Nat} {a b c : Candidate}

/-- R50: the order by which a candidate is put in its place. -/
theorem Candidate.before_iff : a.before ranks b = true ↔
    ranks.get a.cls < ranks.get b.cls ∨ (ranks.get a.cls = ranks.get b.cls ∧
      (b.zone.score < a.zone.score ∨ (a.zone.score = b.zone.score ∧ a.corner < b.corner))) := by
  unfold Candidate.before
  rw [Fin.lt_def]
  split
  · simp only [decide_eq_true_eq]
    omega
  · split <;> simp only [decide_eq_true_eq] <;> omega

theorem Candidate.notAfter_of_before (h : a.before ranks b = true) : a.NotAfter ranks b := by
  rw [Candidate.before_iff, Fin.lt_def] at h
  rw [Candidate.NotAfter, Fin.le_def]
  omega

theorem Candidate.notAfter_of_not_before (h : ¬ a.before ranks b = true) : b.NotAfter ranks a := by
  rw [Candidate.before_iff, Fin.lt_def] at h
  rw [Candidate.NotAfter, Fin.le_def]
  omega

theorem Candidate.NotAfter.trans (hab : a.NotAfter ranks b) (hbc : b.NotAfter ranks c) : a.NotAfter ranks c := by
  rw [Candidate.NotAfter, Fin.le_def] at *
  omega

theorem insertCandidate_perm (ranks : PerClass Nat) (c : Candidate) (cs : List Candidate) :
    (insertCandidate ranks c cs).Perm (c :: cs) := by
  induction cs with
  | nil => exact .refl _
  | cons d ds ih =>
    rw [insertCandidate]
    split
    · exact .refl _
    · exact (ih.cons d).trans (.swap c d ds)

/-- R50: a candidate put in its place leaves an ordered list ordered. -/
theorem insertCandidate_ordered (c : Candidate) {cs : List Candidate} (h : cs.Pairwise (Candidate.NotAfter ranks)) :
    (insertCandidate ranks c cs).Pairwise (Candidate.NotAfter ranks) := by
  induction cs with
  | nil => exact List.pairwise_singleton _ _
  | cons d ds ih =>
    obtain ⟨hd, hds⟩ := List.pairwise_cons.mp h
    rw [insertCandidate]
    split
    next hb =>
      have hcd := Candidate.notAfter_of_before hb
      exact List.pairwise_cons.mpr ⟨List.forall_mem_cons.mpr ⟨hcd, fun x hx => hcd.trans (hd x hx)⟩, h⟩
    next hb =>
      refine List.pairwise_cons.mpr ⟨fun x hx => ?_, ih hds⟩
      obtain rfl | hx := List.mem_cons.mp ((insertCandidate_perm ranks c ds).mem_iff.mp hx)
      · exact Candidate.notAfter_of_not_before hb
      · exact hd x hx

theorem rankCandidates_perm (ranks : PerClass Nat) (cs : List Candidate) : (rankCandidates ranks cs).Perm cs := by
  induction cs with
  | nil => exact .refl _
  | cons c cs ih => exact (insertCandidate_perm ranks c _).trans (ih.cons c)

theorem rankCandidates_ordered (ranks : PerClass Nat) (cs : List Candidate) :
    (rankCandidates ranks cs).Pairwise (Candidate.NotAfter ranks) := by
  induction cs with
  | nil => exact .nil
  | cons c cs ih => exact insertCandidate_ordered c ih

end Order

/-! ### The verdict of an ordered list (R51 to R53) -/

section Verdict

variable {ds : DecisionSettings} {facing : Vector Action 8} {w r : Candidate} {rest : List Candidate}

/-- R52: a candidate of W's class whose corner's action differs from W's. -/
def Candidate.Rival (facing : Vector Action 8) (w c : Candidate) : Prop :=
  c.cls = w.cls ∧ facing[c.corner] ≠ facing[w.corner]

theorem runnerUp_eq_none : runnerUp facing w rest = none ↔ ∀ c ∈ rest, ¬ Candidate.Rival facing w c := by
  simp only [runnerUp, List.find?_eq_none, Bool.and_eq_true, decide_eq_true_eq, Candidate.Rival]

/-- R52: the runner-up is the first rival after W. -/
theorem runnerUp_eq_some : runnerUp facing w rest = some r ↔ Candidate.Rival facing w r ∧
    ∃ pre post, rest = pre ++ r :: post ∧ ∀ c ∈ pre, ¬ Candidate.Rival facing w c := by
  simp only [runnerUp, List.find?_eq_some_iff_append, Bool.not_eq_eq_eq_not, Bool.not_true, ← Bool.not_eq_true,
    Bool.and_eq_true, decide_eq_true_eq, Candidate.Rival]

theorem facedOutcome_eq (k : Cls) : facedOutcome k = if k = .fl then .meter else .stamp := by
  cases k <;> rfl

/-- R51: a culled corner culls the piece, whatever follows it. -/
theorem verdictOf_culled (h : facing[w.corner] = .cull) :
    verdictOf ds facing (w :: rest) = { outcome := .cullCorner, turn := .none, winner := some w.winner } :=
  if_pos h

/-- R52: a runner-up that scores enough makes the piece ambiguous. -/
theorem verdictOf_ambiguous (h : facing[w.corner] ≠ .cull) (hr : runnerUp facing w rest = some r)
    (hs : w.zone.score * ds.margin ≤ r.zone.score * 100) :
    verdictOf ds facing (w :: rest) = { outcome := .cullAmbig, turn := .none, winner := some w.winner } := by
  simp only [verdictOf, h, hr, hs, if_true, if_false]

/-- R53: with no runner-up that scores enough the piece is faced. -/
theorem verdictOf_faced (h : facing[w.corner] ≠ .cull)
    (hr : ∀ r, runnerUp facing w rest = some r → r.zone.score * 100 < w.zone.score * ds.margin) :
    verdictOf ds facing (w :: rest) =
      { outcome := if w.cls = .fl then .meter else .stamp, turn := facing[w.corner].turn, winner := some w.winner } := by
  rw [← facedOutcome_eq]
  simp only [verdictOf, h, if_false]
  cases hq : runnerUp facing w rest with
  | none => rfl
  | some r => exact if_neg (Nat.not_le.mpr (hr r hq))

end Verdict

/-- Settles O57: the list is a selection of the 24 pairs, its order an insertion sort, and the verdict a case split on the
winner's action and its runner-up. -/
theorem fullDecisionRanksAndReads : Obligations.FullDecisionRanksAndReads := by
  refine ⟨fun _ _ _ => rfl, fun _ _ => Entry.mem_candidates, Entry.candidates_nodup,
    fun ranks cs => ⟨rankCandidates_perm ranks cs, rankCandidates_ordered ranks cs⟩, fun _ _ => rfl,
    fun ds facing w rest => ⟨verdictOf_culled, ?_, ?_⟩⟩
  · intro pre r post hc hrest hpre hr hs
    exact verdictOf_ambiguous hc (runnerUp_eq_some.mpr ⟨hr, pre, post, hrest, hpre⟩) hs
  · rintro hc (hnone | ⟨pre, r, post, hrest, hpre, hr, hs⟩)
    · have hq : runnerUp facing w rest = none := runnerUp_eq_none.mpr hnone
      exact verdictOf_faced hc (by simp [hq])
    · have hq := runnerUp_eq_some.mpr ⟨hr, pre, post, hrest, hpre⟩
      exact verdictOf_faced hc fun q h => Option.some.inj (hq.symm.trans h) ▸ hs

end Sys2Proof.Machine
end

section
/-! PROOF. O58: the decisions written in an entry at the zone engine's notices (R54, R55, R61 to R63, R72). -/

namespace Sys2Proof.Machine

/-! ### The entry that a number names -/

section Named

variable {s : State} {piece : Nat} {e : Entry}

/-- With no number twice, an entry that is found has its place. -/
theorem State.exists_placedAt (hd : s.pieces.Nodup) (h : s.entry? piece = some e) :
    e.piece = piece ∧ ∃ older younger, s.PlacedAt older e younger := by
  obtain ⟨hm, hp⟩ := State.entry?_spec h
  obtain ⟨older, younger, hl⟩ := List.append_of_mem hm
  exact ⟨hp, older, younger, State.placedAt_of_nodup hl hd⟩

/-- A change of the entry that a number names is a change of that entry alone. -/
theorem State.modifyEntry_named (hd : s.pieces.Nodup) (h : s.entry? piece = some e) (f : Entry → Entry) :
    s.modifyEntry piece f = s.modifyEntry piece fun _ => f e := by
  obtain ⟨rfl, older, younger, place⟩ := State.exists_placedAt hd h
  rw [place.modifyEntry, place.modifyEntry]

/-- The entry that a number names, put back as it stands. -/
theorem State.modifyEntry_unchanged (hd : s.pieces.Nodup) (h : s.entry? piece = some e) {f : Entry → Entry}
    (hf : f e = e) : s.modifyEntry piece f = s := by
  obtain ⟨rfl, older, younger, place⟩ := State.exists_placedAt hd h
  rw [place.modifyEntry, hf, ← place.list]

end Named

/-- A flag raised on a condition. -/
theorem State.raiseIf_eq_flagged (s : State) {b : Bool} {p : Prop} [Decidable p] (h : b = true ↔ p) (f : Flag) :
    s.raiseIf b f = if p then s.flagged f.index else s :=
  if_congr h rfl rfl

/-! ### The full decision (R54, R55) -/

theorem Entry.fullDue_iff (e : Entry) :
    e.fullDue = true ↔ e.running = true ∧ e.sides.face.state = .closed ∧ e.sides.back.state = .closed := by
  simp only [Entry.fullDue, Bool.and_eq_true, decide_eq_true_eq, and_assoc]

/-- A remark added on a condition, in an entry's remarks. -/
theorem Entry.remarks_or_ite (e : Entry) (p : Prop) [Decidable p] (m : BitVec 17) :
    e.remarks ||| (if p then m else 0) = if p then e.remarks ||| m else e.remarks := by
  split
  · rfl
  · exact BitVec.or_zero

/-- R54, R55: the entry that a full decision leaves. -/
theorem Entry.takeFull_entry (st : Settings) (ts : TraySet) (e : Entry) :
    (e.takeFull st ts).1 =
      e.fullTaken (e.verdict st ts) (formDecision st ts .full (e.winnerCount (e.verdict st ts)) (e.verdict st ts)) := by
  unfold Entry.takeFull Entry.fullTaken
  simp only [Entry.addRemarkIf_eq]
  cases e.decision with
  | none =>
    simp only [Entry.remarks_or_ite]
    rfl
  | some d =>
    simp only [Entry.remarks_or_ite, decide_eq_true_eq]
    rfl

/-- R55, R59: a full decision sets BAND_SKIP where it is written and its plan says so. -/
theorem Entry.takeFull_bandSkip (st : Settings) (ts : TraySet) (e : Entry) :
    (e.takeFull st ts).2 = true ↔ e.decision = none ∧
      (formDecision st ts .full (e.winnerCount (e.verdict st ts)) (e.verdict st ts)).bandSkip = true := by
  unfold Entry.takeFull
  cases e.decision <;> simp

theorem Entry.fullTaken_piece (e : Entry) (v : Verdict) (w : Written) : (e.fullTaken v w).piece = e.piece := by
  unfold Entry.fullTaken
  split <;> rfl

/-- R72: the end of an inspection and a flag do not touch. -/
theorem State.finishInspection_raiseIf (s : State) (b : Bool) (f : Flag) (piece : Nat) :
    (s.raiseIf b f).finishInspection piece = (s.finishInspection piece).raiseIf b f := by
  cases b <;> rfl

section ClosedNotice

variable {s : State} {piece : Nat} {e : Entry}

/-- R54: a side-closed notice at which no full decision is due. -/
theorem State.closedNotice_notDue (h : s.entry? piece = some e) (hn : ¬ e.fullDue = true) :
    s.closedNotice piece = s := by
  simp only [State.closedNotice, h, if_neg hn]

/-- R54, R55: a side-closed notice at which the full decision is due. -/
theorem State.closedNotice_due (hd : s.pieces.Nodup) (h : s.entry? piece = some e) (hdue : e.fullDue = true) :
    s.closedNotice piece =
      (s.finishedWith (e.takeFull (s.settingsOf e.generation) s.trays.inForce).1).raiseIf
        (e.takeFull (s.settingsOf e.generation) s.trays.inForce).2 .bandSkip := by
  obtain ⟨-, hp⟩ := State.entry?_spec h
  have hpiece : (e.takeFull (s.settingsOf e.generation) s.trays.inForce).1.piece = piece := by
    rw [Entry.takeFull_entry, Entry.fullTaken_piece, hp]
  rw [← State.finishInspection_eq_finishedWith, hpiece]
  simp only [State.closedNotice, h, if_pos hdue]
  rw [State.finishInspection_raiseIf, State.modifyEntry_named hd h]

end ClosedNotice

/-! ### The early check (R61, R62) -/

theorem rankOneClass_eq {ranks : PerClass Nat} {k : Cls} (hk : ranks.get k = 1)
    (hu : ∀ k', ranks.get k' = 1 → k' = k) : rankOneClass ranks = k := by
  unfold rankOneClass
  split
  next hph => exact hu .ph hph
  next hph =>
    split
    next hcol => exact hu .col hcol
    next hcol =>
      cases k with
      | ph => exact absurd hk hph
      | col => exact absurd hk hcol
      | fl => rfl

/-- A corner lies on the side that it is named by. -/
theorem sideOfCorner_cornerOf (sd : Side) (en : End) (ed : Edge) : sideOfCorner (cornerOf sd en ed) = sd := by
  cases sd <;> cases en <;> cases ed <;> rfl

section Early

variable {st : Settings} {ts : TraySet} {e : Entry} {k : Cls} {sd : Side} {c : Corner}

theorem Entry.earlyChecked_iff (hk : rankOneClass st.decision.ranks = k) : e.earlyChecked st = true ↔
    e.running = true ∧ e.decision = none ∧ e.dispatch = none ∧ (st.tests.get k).earlyHits ≠ 0 := by
  simp only [Entry.earlyChecked, hk, Bool.and_eq_true, Option.isNone_iff_eq_none, decide_eq_true_eq, and_assoc]

theorem Entry.qualifies_iff (hk : rankOneClass st.decision.ranks = k) :
    e.qualifies st ts c = true ↔ e.EarlyAt st ts.facing k c := by
  simp only [Entry.qualifies, Entry.EarlyAt, hk, Bool.and_eq_true, Bool.or_eq_true, decide_eq_true_eq, and_assoc]

/-- R62: the corner an early decision is taken from. -/
theorem Entry.earlyCorner_iff (hk : rankOneClass st.decision.ranks = k) :
    e.earlyCorner st ts sd = some c ↔ e.EarlyFrom st ts.facing k sd c := by
  unfold Entry.earlyCorner Entry.EarlyFrom
  simp only [← Entry.qualifies_iff (e := e) (ts := ts) hk, hk]
  cases ha : e.qualifies st ts (cornerOf sd .lead .top) with
  | false => cases hb : e.qualifies st ts (cornerOf sd .lead .bottom) <;> simp [eq_comm]
  | true =>
    cases hb : e.qualifies st ts (cornerOf sd .lead .bottom) with
    | false => simp [eq_comm]
    | true =>
      by_cases hf : ts.facing[cornerOf sd .lead .top] = ts.facing[cornerOf sd .lead .bottom]
      · by_cases hs : (e.zone (cornerOf sd .lead .top) k).score < (e.zone (cornerOf sd .lead .bottom) k).score
        · simp [-Fin.getElem_fin, hf, hs, Nat.not_le.mpr hs, eq_comm]
        · simp [-Fin.getElem_fin, hf, hs, Nat.le_of_not_lt hs, eq_comm]
      · simp [-Fin.getElem_fin, hf]

/-- R62: it is one of the side's two LEAD corners. -/
theorem Entry.EarlyFrom.side {facing : Vector Action 8} (h : e.EarlyFrom st facing k sd c) : sideOfCorner c = sd := by
  obtain ⟨rfl, -⟩ | ⟨rfl, -⟩ := h <;> exact sideOfCorner_cornerOf _ _ _

/-- R61, R62: a leading-complete notice that finds no corner to decide from, or makes no check. -/
theorem Entry.takeEarly_none (h : e.earlyChecked st = true → e.earlyCorner st ts sd = none) :
    e.takeEarly st ts sd = (e, false) := by
  unfold Entry.takeEarly
  split
  next hc => rw [h hc]
  next => rfl

/-- R63: the early decision. -/
theorem Entry.takeEarly_some (hk : rankOneClass st.decision.ranks = k) (hc : e.earlyChecked st = true)
    (h : e.EarlyFrom st ts.facing k sd c) {w : Written}
    (hw : w = formDecision st ts .early (e.sides.get sd).n
      { outcome := if k = .fl then .meter else .stamp, turn := ts.facing[c].turn, winner := some (e.winnerAt c k) }) :
    e.takeEarly st ts sd = ({ e with
      decision := some w.decision, remarks := e.remarks ||| (if w.clamped = true then 5#17 else 1#17) }, w.bandSkip) := by
  have hcorner := (Entry.earlyCorner_iff hk).mpr h
  have hv : e.earlyVerdict st ts c =
      { outcome := if k = .fl then .meter else .stamp, turn := ts.facing[c].turn, winner := some (e.winnerAt c k) } := by
    rw [Entry.earlyVerdict, hk, facedOutcome_eq]
    rfl
  have hform : formDecision st ts .early (e.winnerCount (e.earlyVerdict st ts c)) (e.earlyVerdict st ts c) = w := by
    rw [hw, hv, ← h.side]
    rfl
  simp only [Entry.takeEarly, if_pos hc, hcorner, hform, Entry.addRemark, Entry.addRemarkIf_eq, BitVec.or_assoc]
  cases w.clamped <;> rfl

end Early

/-! ### The notices in the state -/

section EarlyNotice

variable {s : State} {piece : Nat} {e : Entry} {sd : Side}

/-- R61 to R63: a leading-complete notice, through its entry. -/
theorem State.leadingNotice_eq (hd : s.pieces.Nodup) (h : s.entry? piece = some e) {e' : Entry} {b : Bool}
    (ht : e.takeEarly (s.settingsOf e.generation) s.trays.inForce sd = (e', b)) :
    s.leadingNotice sd piece = (s.withPiece piece fun _ => e').raiseIf b .bandSkip := by
  simp only [State.leadingNotice, h]
  rw [State.modifyEntry_named hd h, ht]
  rfl

end EarlyNotice

/-- Settles O58: each notice is what it makes of its entry, put back in the table. -/
theorem decisionsAreWrittenInTheEntry : Obligations.DecisionsAreWrittenInTheEntry := by
  intro s piece e hd he st ts v full due
  refine ⟨fun hn => State.closedNotice_notDue he (mt e.fullDue_iff.mp hn), fun hdue => ?_, fun sd k hk hu => ?_⟩
  · have hskip : (e.takeFull st ts).2 = true ↔ e.decision = none ∧ full.bandSkip = true := e.takeFull_bandSkip st ts
    have hentry : (e.takeFull st ts).1 = e.fullTaken v full := e.takeFull_entry st ts
    rw [State.closedNotice_due hd he (e.fullDue_iff.mpr hdue), hentry]
    exact State.raiseIf_eq_flagged _ hskip .bandSkip
  · have hrank : rankOneClass st.decision.ranks = k := rankOneClass_eq hk hu
    intro checked
    have hchecked : e.earlyChecked st = true ↔ checked := Entry.earlyChecked_iff hrank
    refine ⟨fun hn => ?_, fun c hc hfrom => ?_⟩
    · have hnone : e.takeEarly st ts sd = (e, false) := Entry.takeEarly_none fun hc =>
        Option.eq_none_iff_forall_ne_some.mpr fun c hcorner =>
          hn.elim (fun h => h (hchecked.mp hc)) fun h => h c ((Entry.earlyCorner_iff hrank).mp hcorner)
      rw [State.leadingNotice_eq hd he hnone]
      exact State.modifyEntry_unchanged hd he rfl
    · exact State.leadingNotice_eq hd he (Entry.takeEarly_some hrank (hchecked.mpr hc) hfrom rfl)

end Sys2Proof.Machine
end

section
/-! PROOF. O59: the post-turn position and the print plan of a decision (R56 to R60). -/

namespace Sys2Proof.Machine

/-! ### The post-turn frame (R56, R57) -/

/-- R56: ROTATE and FLIP_ROTATE measure x' from the last line. -/
theorem postX_eq (t : Turn) (n xc : Nat) :
    postX t n xc = if t = .rotate ∨ t = .flipRotate then n - 1 - xc else xc := by
  cases t <;> rfl

/-- R56: FLIP and ROTATE measure y' from the bottom edge. -/
theorem postY_eq (t : Turn) (e yc : Nat) : postY t e yc = if t = .flip ∨ t = .rotate then e - yc else yc := by
  cases t <;> rfl

theorem postYHeld_iff (t : Turn) (e yc : Nat) : postYHeld t e yc = true ↔ (t = .flip ∨ t = .rotate) ∧ e < yc := by
  cases t <;> simp [postYHeld]

/-! ### The band test (R58, R59) -/

section Axis

variable {lo hi tolerance v : Nat}

/-- R58: a value more than the tolerance outside the band is beyond. -/
theorem axisTest_eq_beyond_iff (h : lo ≤ hi) :
    axisTest lo hi tolerance v = .beyond ↔ v + tolerance < lo ∨ hi + tolerance < v := by
  unfold axisTest
  split
  · split <;> simp only [true_iff, reduceCtorEq, false_iff] <;> omega
  · split
    · split <;> simp only [true_iff, reduceCtorEq, false_iff] <;> omega
    · simp only [reduceCtorEq, false_iff]
      omega

/-- R58: a value that is not beyond is kept, or clamped to the edge it lies outside of. -/
theorem axisTest_cases (hb : axisTest lo hi tolerance v ≠ .beyond) :
    (axisTest lo hi tolerance v = .kept ∧ lo ≤ v ∧ v ≤ hi) ∨ (axisTest lo hi tolerance v = .clamped lo ∧ v < lo) ∨
      (axisTest lo hi tolerance v = .clamped hi ∧ hi < v) := by
  unfold axisTest at *
  split at hb
  next hlo =>
    split at hb
    next ht => exact .inr (.inl ⟨by rw [if_pos hlo, if_pos ht], hlo⟩)
    next => exact absurd rfl hb
  next hlo =>
    rw [if_neg hlo]
    split at hb
    next hhi =>
      split at hb
      next ht => exact .inr (.inr ⟨by rw [if_pos hhi, if_pos ht], hhi⟩)
      next => exact absurd rfl hb
    next hhi => exact .inl ⟨if_neg hhi, Nat.le_of_not_lt hlo, Nat.le_of_not_lt hhi⟩

/-- R59: an axis that is not beyond takes the nearest value in the band. -/
theorem axisTest_value (h : lo ≤ hi) (hb : axisTest lo hi tolerance v ≠ .beyond) :
    (axisTest lo hi tolerance v).value v = max lo (min v hi) := by
  obtain ⟨ha, hv, hv'⟩ | ⟨ha, hv⟩ | ⟨ha, hv⟩ := axisTest_cases hb <;> simp only [ha, AxisResult.value] <;> omega

/-- R59: it was clamped where that changes it. -/
theorem axisTest_isClamped (h : lo ≤ hi) (hb : axisTest lo hi tolerance v ≠ .beyond) :
    (axisTest lo hi tolerance v).isClamped = true ↔ max lo (min v hi) ≠ v := by
  obtain ⟨ha, hv, hv'⟩ | ⟨ha, hv⟩ | ⟨ha, hv⟩ := axisTest_cases hb <;>
    simp only [ha, AxisResult.isClamped, Bool.false_eq_true, false_iff, true_iff] <;> omega

end Axis

/-! ### The decision part of a verdict (R53, R59, R60) -/

section Form

variable {st : Settings} {v : Verdict} {w : Winner}

/-- R59: a STAMP verdict with an axis beyond. -/
theorem formDecision_stampBeyond (hw : v.winner = some w) (ho : v.outcome = .stamp) (ts : TraySet) (kind : DecisionKind)
    (n : Nat)
    (hb : axisTest st.decision.xMin st.decision.xMax st.decision.tolerance (postX v.turn n w.xc) = .beyond ∨
      axisTest st.decision.yMin st.decision.yMax st.decision.tolerance (postY v.turn w.e w.yc) = .beyond) :
    formDecision st ts kind n v =
      { decision :=
          { kind := kind, outcome := .stamp, turn := v.turn, winner := some w
            position := some (postX v.turn n w.xc, postY v.turn w.e w.yc), plan := some .skipBand }
        clamped := postYHeld v.turn w.e w.yc, bandSkip := true } := by
  simp only [formDecision, hw, ho, if_pos hb]

/-- R59, R60: a STAMP verdict with no axis beyond. -/
theorem formDecision_stampPrint (hw : v.winner = some w) (ho : v.outcome = .stamp) (ts : TraySet) (kind : DecisionKind)
    (n : Nat) {ax ay : AxisResult}
    (hx : axisTest st.decision.xMin st.decision.xMax st.decision.tolerance (postX v.turn n w.xc) = ax)
    (hy : axisTest st.decision.yMin st.decision.yMax st.decision.tolerance (postY v.turn w.e w.yc) = ay)
    (hb : ¬ (ax = .beyond ∨ ay = .beyond)) :
    formDecision st ts kind n v =
      { decision :=
          { kind := kind, outcome := .stamp, turn := v.turn, winner := some w
            position := some (ax.value (postX v.turn n w.xc), ay.value (postY v.turn w.e w.yc))
            plan := some (.print (ts.die w.cls)) }
        clamped := postYHeld v.turn w.e w.yc || ax.isClamped || ay.isClamped, bandSkip := false } := by
  simp only [formDecision, hw, ho, hx, hy, if_neg hb]

/-- R53, R60: a METER verdict. -/
theorem formDecision_meter (hw : v.winner = some w) (ho : v.outcome = .meter) (st : Settings) (ts : TraySet)
    (kind : DecisionKind) (n : Nat) :
    formDecision st ts kind n v =
      { decision :=
          { kind := kind, outcome := .meter, turn := v.turn, winner := some w
            position := some (postX v.turn n w.xc, postY v.turn w.e w.yc), plan := some .skipNotStamp }
        clamped := postYHeld v.turn w.e w.yc, bandSkip := false } := by
  simp only [formDecision, hw, ho]

/-- R51, R52, R60: a CULL verdict has neither position nor plan. -/
theorem formDecision_cull (hs : v.outcome ≠ .stamp) (hm : v.outcome ≠ .meter) (st : Settings) (ts : TraySet)
    (kind : DecisionKind) (n : Nat) :
    formDecision st ts kind n v =
      { decision :=
          { kind := kind, outcome := v.outcome, turn := v.turn, winner := v.winner, position := none, plan := none }
        clamped := false, bandSkip := false } := by
  unfold formDecision
  cases hw : v.winner with
  | none => rfl
  | some w => simp only []

end Form

/-- Settles O59: by the outcome, STAMP axis by axis. -/
theorem positionsAndPlansFollowTheOutcome : Obligations.PositionsAndPlansFollowTheOutcome := by
  refine ⟨fun st ts kind n v w hw hx hy => ?_, fun st ts kind n v ho => ?_, fun _ => ⟨rfl, rfl⟩⟩
  · rw [← postX_eq, ← postY_eq]
    intro x y lowHeld far beyond inX inY f
    have hheld : postYHeld v.turn w.e w.yc = true ↔ lowHeld := postYHeld_iff _ _ _
    have hbeyond : (axisTest st.decision.xMin st.decision.xMax st.decision.tolerance x = .beyond ∨
        axisTest st.decision.yMin st.decision.yMax st.decision.tolerance y = .beyond) ↔ beyond :=
      or_congr (axisTest_eq_beyond_iff hx) (axisTest_eq_beyond_iff hy)
    refine ⟨fun ho hb => ?_, fun ho hb => ?_, fun ho => ?_⟩
    · have hf : f = _ := formDecision_stampBeyond hw ho ts kind n (hbeyond.mpr hb)
      rw [hf]
      exact ⟨rfl, rfl, hheld⟩
    · have hf : f = _ := formDecision_stampPrint hw ho ts kind n rfl rfl (mt hbeyond.mp hb)
      obtain ⟨hbx, hby⟩ := not_or.mp (mt hbeyond.mp hb)
      rw [hf]
      rw [Bool.or_eq_true, Bool.or_eq_true, hheld, axisTest_isClamped hx hbx, axisTest_isClamped hy hby,
        axisTest_value hx hbx, axisTest_value hy hby, or_assoc]
      exact ⟨rfl, rfl, .rfl, le_max_left _ _, max_le hx (min_le_right _ _), le_max_left _ _, max_le hy (min_le_right _ _)⟩
    · have hf : f = _ := formDecision_meter hw ho st ts kind n
      rw [hf]
      exact ⟨rfl, rfl, hheld⟩
  · have hs : v.outcome ≠ .stamp := fun h => by simp [h] at ho
    have hm : v.outcome ≠ .meter := fun h => by simp [h] at ho
    exact formDecision_cull hs hm st ts kind n

end Sys2Proof.Machine
end

section
/-! SUPPORT. Properties of the state that parsers and zone work do not bear on, nor an entry but for its generation and
whether its inspection runs: `KeptByChanges P` lists the changes they are made of, and what follows holds of every image
write short of an open, of every read that is answered and of every print status word. -/

namespace Sys2Proof.Machine

/-! ### Changes of an entry that leave its claim on a generation (R77) -/

/-- A change of an entry leaves its generation, and its inspection running or finished as it was. -/
structure Entry.SameClaim (e f : Entry) : Prop where
  generation : f.generation = e.generation
  running    : f.running = e.running

theorem Entry.SameClaim.refl (e : Entry) : e.SameClaim e := ⟨rfl, rfl⟩

theorem Entry.SameClaim.trans {e f g : Entry} (h : e.SameClaim f) (k : f.SameClaim g) : e.SameClaim g :=
  ⟨k.generation.trans h.generation, k.running.trans h.running⟩

theorem Entry.addRemark_sameClaim (e : Entry) (k : Remark) : e.SameClaim (e.addRemark k) := ⟨rfl, rfl⟩

theorem Entry.addRemarkIf_sameClaim (e : Entry) (b : Bool) (k : Remark) : e.SameClaim (e.addRemarkIf b k) := by
  cases b
  · exact .refl e
  · exact e.addRemark_sameClaim k

theorem Entry.decide_sameClaim (e : Entry) (d : Option Decision) : e.SameClaim { e with decision := d } := ⟨rfl, rfl⟩

theorem Entry.modifySide_sameClaim (sd : Side) (f : SideRecord → SideRecord) (e : Entry) :
    e.SameClaim (e.modifySide sd f) := ⟨rfl, rfl⟩

theorem Entry.addLine_sameClaim (st : Settings) (sd : Side) (en : End) (x extent : Nat) (q : LineTallies) (e : Entry) :
    e.SameClaim (e.addLine st sd en x extent q) := ⟨rfl, rfl⟩

theorem Entry.completeEnd_sameClaim (st : Settings) (sd : Side) (en : End) (e : Entry) :
    e.SameClaim (e.completeEnd st sd en) := ⟨rfl, rfl⟩

theorem Entry.buildTrailing_sameClaim (st : Settings) (sd : Side) (n : Nat) (ring : List RingEntry) (e : Entry) :
    e.SameClaim (e.buildTrailing st sd n ring) := by
  unfold Entry.buildTrailing
  refine Entry.SameClaim.trans ?_ (Entry.completeEnd_sameClaim st sd .trail _)
  exact foldl_frame (R := Entry.SameClaim) .refl (fun _ _ _ => .trans)
    (fun e (q : RingEntry) => e.addLine_sameClaim st sd .trail q.x q.extent q.tallies) _ e

theorem Entry.dropUndone_sameClaim (e : Entry) : e.SameClaim e.dropUndone := ⟨rfl, rfl⟩

theorem Entry.takeFault_sameClaim (f : PieceFault) (e : Entry) : e.SameClaim (e.takeFault f) := by
  unfold Entry.takeFault
  split <;> exact ⟨rfl, rfl⟩

theorem Entry.takeFull_sameClaim (st : Settings) (ts : TraySet) (e : Entry) : e.SameClaim (e.takeFull st ts).1 := by
  unfold Entry.takeFull
  simp only []
  split
  · exact e.addRemarkIf_sameClaim _ _
  · exact (e.decide_sameClaim _).trans (Entry.addRemarkIf_sameClaim _ _ _)

theorem Entry.takeEarly_sameClaim (st : Settings) (ts : TraySet) (sd : Side) (e : Entry) :
    e.SameClaim (e.takeEarly st ts sd).1 := by
  unfold Entry.takeEarly
  split
  · split
    · exact ((e.decide_sameClaim _).trans (Entry.addRemark_sameClaim _ _)).trans (Entry.addRemarkIf_sameClaim _ _ _)
    · exact .refl e
  · exact .refl e

theorem Entry.storePrint_sameClaim (a : PrintAnswer) (e : Entry) : e.SameClaim (e.storePrint a) :=
  .trans (f := { e with print := some a }) ⟨rfl, rfl⟩ (Entry.addRemarkIf_sameClaim _ _ _)

theorem Entry.recordStatus_sameClaim (st : PrintStatus) (e : Entry) : e.SameClaim (e.recordStatus st) := by
  cases st <;> exact ⟨rfl, rfl⟩

theorem Entry.takeExit_sameClaim (st : Nat) (jam : Bool) (e : Entry) : e.SameClaim (e.takeExit st jam) := by
  have h : e.SameClaim (({ e with stacker := some (min st 15) } : Entry).addRemarkIf jam .jam) :=
    .trans (f := { e with stacker := some (min st 15) }) ⟨rfl, rfl⟩ (Entry.addRemarkIf_sameClaim _ _ _)
  unfold Entry.takeExit
  simp only []
  split
  · exact h.trans (Entry.addRemarkIf_sameClaim _ _ _)
  · exact h.trans (Entry.addRemark_sameClaim _ _)

/-! ### What is made of such changes -/

/-- `P` is kept by a flag set, by every change of parsers, zone work and cancel control, by a change of an entry that
leaves its claim, and by the end of an inspection. -/
structure KeptByChanges (P : State → Prop) : Prop where
  raise   : ∀ s f, P s → P (s.raise f)
  parsers : ∀ s ps, P s → P { s with parsers := ps }
  zones   : ∀ s zs, P s → P { s with zones := zs }
  cancel  : ∀ s c, P s → P { s with cancel := c }
  modify  : ∀ s p (f : Entry → Entry), (∀ e : Entry, e.SameClaim (f e)) → P s → P (s.modifyEntry p f)
  finish  : ∀ s p, P s → P (s.finishInspection p)

namespace KeptByChanges

variable {P : State → Prop} {s : State}

theorem raiseIf (k : KeptByChanges P) (b : Bool) (f : Flag) (h : P s) : P (s.raiseIf b f) := by
  cases b
  · exact h
  · exact k.raise s f h

theorem setParser (k : KeptByChanges P) (sd : Side) (p : Parser) (h : P s) : P (s.setParser sd p) := k.parsers s _ h

theorem setZone (k : KeptByChanges P) (sd : Side) (z : ZoneWork) (h : P s) : P (s.setZone sd z) := k.zones s _ h

theorem modifySide (k : KeptByChanges P) (sd : Side) (p : Nat) (f : SideRecord → SideRecord) (h : P s) :
    P (s.modifyEntry p (Entry.modifySide sd f)) :=
  k.modify s p _ (Entry.modifySide_sameClaim sd f) h

/-- R20: a piece fault. -/
theorem pieceFault (k : KeptByChanges P) (p : Nat) (f : PieceFault) (h : P s) : P (s.pieceFault p f) := by
  have hm := k.modify s p _ (Entry.takeFault_sameClaim f) h
  unfold State.pieceFault
  split
  · exact h
  · simp only []
    split
    · exact k.modify _ p _ Entry.dropUndone_sameClaim (k.zones _ _ (k.finish _ p hm))
    · exact hm

theorem faultLimitCheck (k : KeptByChanges P) (p : Nat) (h : P s) : P (s.faultLimitCheck p) := by
  unfold State.faultLimitCheck
  split
  · exact h
  · split
    · exact k.pieceFault p _ h
    · exact h

theorem leadingNotice (k : KeptByChanges P) (sd : Side) (p : Nat) (h : P s) : P (s.leadingNotice sd p) := by
  unfold State.leadingNotice
  split
  · exact h
  · exact k.raiseIf _ _ (k.modify s p _ (Entry.takeEarly_sameClaim _ _ sd) h)

/-- R54, R55: a side-closed notice. -/
theorem closedNotice (k : KeptByChanges P) (p : Nat) (h : P s) : P (s.closedNotice p) := by
  unfold State.closedNotice
  split
  · exact h
  · split
    · exact k.finish _ p (k.raiseIf _ _ (k.modify s p _ (Entry.takeFull_sameClaim _ _) h))
    · exact h

theorem completeLeading (k : KeptByChanges P) (sd : Side) (p : Nat) (st : Settings) (h : P s) :
    P (s.completeLeading sd p st) :=
  k.leadingNotice sd p (k.setZone sd _ (k.modify s p _ (Entry.completeEnd_sameClaim st sd .lead) h))

/-- R32, R33: the handover of a line. -/
theorem handLine (k : KeptByChanges P) (sd : Side) (p x extent : Nat) (faulted : Bool) (h : P s) :
    P (s.handLine sd p x extent faulted) := by
  have added : ∀ (c : Prop) [Decidable c] (t : State) (st : Settings) (q : LineTallies), P t →
      P (if c then t.modifyEntry p (Entry.addLine st sd .lead x extent q) else t) := fun c _ t st q ht => by
    split
    · exact k.modify t p _ (Entry.addLine_sameClaim st sd .lead x extent q) ht
    · exact ht
  have completed : ∀ (c : Prop) [Decidable c] (t : State) (st : Settings), P t →
      P (if c then t.completeLeading sd p st else t) := fun c _ t st ht => by
    split
    · exact k.completeLeading sd p st ht
    · exact ht
  unfold State.handLine
  split
  · exact h
  · simp only []
    split
    · exact h
    · exact k.setZone sd _ (completed _ _ _ (added _ _ _ _ (k.setZone sd _ h)))

theorem handFaulted (k : KeptByChanges P) (sd : Side) (p x extent : Nat) (running : Bool) (h : P s) :
    P (s.handFaulted sd p x extent running) := by
  unfold State.handFaulted
  split
  · exact k.faultLimitCheck p (k.handLine sd p x extent true h)
  · exact h

theorem handSample (k : KeptByChanges P) (sd : Side) (ln : Line) (w : Nat) (h : P s) : P (s.handSample sd ln w) := by
  unfold State.handSample
  split
  · exact h
  · exact k.setZone sd _ h

/-- R18, R37: a side close. -/
theorem sideClose (k : KeptByChanges P) (sd : Side) (p x : Nat) (h : P s) : P (s.sideClose sd p x) := by
  have close : ∀ (t : State) (n : Nat) (st : Settings), P t → P (t.zoneClose sd p n st) := fun t n st ht => by
    unfold State.zoneClose
    refine k.closedNotice p (k.setZone sd _ (k.modify _ p _ (Entry.buildTrailing_sameClaim st sd n _) ?_))
    split
    · exact k.completeLeading sd p st ht
    · exact ht
  unfold State.sideClose
  split
  · exact h
  · split
    · simp only []
      split
      · exact close _ _ _ (k.modifySide sd p _ h)
      · exact k.modifySide sd p _ h
    · exact h

theorem zoneOpen (k : KeptByChanges P) (sd : Side) (p : Nat) (h : P s) : P (s.zoneOpen sd p) := by
  unfold State.zoneOpen
  split
  · split
    · exact k.setZone sd _ h
    · exact h
  · exact h

theorem markMissingSides (k : KeptByChanges P) (sd : Side) (p : Nat) (h : P s) : P (s.markMissingSides sd p) :=
  foldl_keeps (fun _ q ht => k.pieceFault q _ (k.modifySide sd q _ ht)) _ h

theorem overlong (k : KeptByChanges P) (sd : Side) (p : Nat) (h : P s) : P (s.overlong sd p) :=
  k.pieceFault p _ (k.modifySide sd p _ h)

theorem truncateOpen (k : KeptByChanges P) (sd : Side) (p : Nat) (h : P s) : P (s.truncateOpen sd p) := by
  unfold State.truncateOpen
  split
  · exact h
  · exact k.pieceFault _ _ (k.modifySide sd _ _ h)

/-! ### Headers that open no piece -/

/-- R7: a MALFORMED header. -/
theorem malformedHeader (k : KeptByChanges P) (sd : Side) (hd : Header) (h : P s) : P (s.malformedHeader sd hd) := by
  have h0 := k.setParser sd .skipping (k.raise s .lineFault h)
  unfold State.malformedHeader
  simp only []
  split
  · exact h0
  · split
    · split
      · exact k.overlong sd _ h0
      · exact k.handFaulted sd _ _ _ _ (k.modifySide sd _ _ h0)
    · exact h0

/-- R10: MISMATCH. -/
theorem mismatchHeader (k : KeptByChanges P) (sd : Side) (hd : Header) (h : P s) : P (s.mismatchHeader sd hd) := by
  have h0 := k.raise s .lineFault h
  unfold State.mismatchHeader
  simp only []
  split
  · exact k.setParser sd _ h0
  · refine k.setParser sd _ ?_
    split
    · exact k.handFaulted sd _ _ _ _ (k.modifySide sd _ _ h0)
    · split
      · exact k.faultLimitCheck _ (k.modifySide sd _ _ h0)
      · exact k.modifySide sd _ _ h0

/-- R11: an accepted header. -/
theorem acceptHeader (k : KeptByChanges P) (sd : Side) (slot : Nat) (hd : Header) (h : P s) :
    P (s.acceptHeader sd slot hd) := by
  have opened : ∀ t : State, P t → P (if hd.lead = true then t.zoneOpen sd hd.piece else t) := fun t ht => by
    split
    · exact k.zoneOpen sd _ ht
    · exact ht
  unfold State.acceptHeader
  split
  · exact h
  · have h0 := fun f p => k.setParser sd p (k.modifySide sd hd.piece f h)
    simp only []
    split
    · exact k.pieceFault _ _ (opened _ (h0 _ _))
    · exact opened _ (h0 _ _)

/-! ### Lines and beats -/

theorem closeIfTrail (k : KeptByChanges P) (sd : Side) (ln : Line) (h : P s) : P (s.closeIfTrail sd ln) := by
  unfold State.closeIfTrail
  split
  · exact k.sideClose sd _ _ h
  · exact h

/-- R15: line completion. -/
theorem completeLine (k : KeptByChanges P) (sd : Side) (ln : Line) (h : P s) : P (s.completeLine sd ln) := by
  unfold State.completeLine
  refine k.closeIfTrail sd ln ?_
  split
  · exact k.handLine sd _ _ _ _ (k.setParser sd _ h)
  · exact k.setParser sd _ h

/-- R16: a line fault. -/
theorem faultLine (k : KeptByChanges P) (sd : Side) (ln : Line) (h : P s) : P (s.faultLine sd ln) :=
  k.closeIfTrail sd ln
    (k.handFaulted sd _ _ _ _ (k.modifySide sd _ _ (k.setParser sd _ (k.raise s .lineFault h))))

/-- R12: a sample in order. -/
theorem takeSample (k : KeptByChanges P) (sd : Side) (w : Nat) (h : P s) : P (State.takeSample sd s w) := by
  have handed : ∀ ln : Line, P (if ln.inspecting = true then s.handSample sd ln w else s) := fun ln => by
    split
    · exact k.handSample sd ln w h
    · exact h
  unfold State.takeSample
  split
  · simp only []
    split
    · exact k.completeLine sd _ (handed _)
    · exact k.setParser sd _ (handed _)
  · exact h

/-- R12 to R14: a beat that is no header's. -/
theorem takeBeat (k : KeptByChanges P) (sd : Side) (r : Request) (aligned : Bool) (slotBase b : Nat) (h : P s) :
    P (State.takeBeat sd r aligned slotBase s b) := by
  unfold State.takeBeat
  split
  · split
    · exact k.faultLine sd _ h
    · split
      · exact h
      · split
        · split
          · exact foldl_keeps (fun _ w => k.takeSample sd w) _ h
          · exact k.faultLine sd _ h
        · exact k.faultLine sd _ h
  · exact h

theorem faultInLine (k : KeptByChanges P) (sd : Side) (h : P s) : P (s.faultInLine sd) := by
  unfold State.faultInLine
  split
  · exact k.faultLine sd _ h
  · exact h

theorem faultStraySlot (k : KeptByChanges P) (sd : Side) (slot : Nat) (h : P s) : P (s.faultStraySlot sd slot) := by
  unfold State.faultStraySlot
  split
  · split
    · exact k.faultLine sd _ h
    · exact h
  · exact h

/-! ### Image writes, where the open of a piece keeps `P` too -/

section Opens

variable (k : KeptByChanges P) (opens : ∀ s p, s.mode = .run → P s → P (s.openEntry p))
  (counts : ∀ s p, P s → P (s.countUninspected p))

include k opens counts

/-- R6 to R11: a readable header. -/
theorem takeHeader (sd : Side) (slot : Nat) (hd : Header) (h : P s) : P (s.takeHeader sd slot hd) := by
  unfold State.takeHeader
  split
  · exact k.malformedHeader sd hd h
  · exact k.setParser sd _ (k.raiseIf _ _ h)
  · have ht := k.truncateOpen sd hd.piece h
    unfold State.newPieceHeader
    simp only []
    split
    · rename_i hm
      exact k.acceptHeader sd slot hd (k.markMissingSides sd _ (opens _ _ hm ht))
    · exact k.setParser sd _ (counts _ _ ht)
  · exact k.acceptHeader sd slot hd (k.markMissingSides sd _ (k.truncateOpen sd _ h))
  · exact k.setParser sd _ (k.raiseIf _ _ h)
  · exact k.setParser sd _ (k.overlong sd _ h)
  · exact k.mismatchHeader sd hd h
  · exact k.acceptHeader sd slot hd h

/-- R2, R5, R13: an image write. -/
theorem takeImageWrite (sd : Side) (base : Nat) (r : Request) (h : P s) : P (s.takeImageWrite sd base r) := by
  unfold State.takeImageWrite
  simp only []
  split
  · refine foldl_keeps (fun _ b => k.takeBeat sd r _ _ b) _ ?_
    have hf := k.faultInLine sd h
    unfold State.headerWrite
    simp only []
    split
    · exact takeHeader k opens counts sd _ _ hf
    · exact k.setParser sd _ (k.raise _ _ hf)
  · exact foldl_keeps (fun _ b => k.takeBeat sd r _ _ b) _ (k.faultStraySlot sd _ h)

end Opens

/-! ### Reads and status words -/

/-- R93 to R101: a read's part in the dispatch window. -/
theorem takeDispatchRead (k : KeptByChanges P) (gate : Option Nat) (base : Nat) (r : Request) (q : State × FillPlan)
    (h : P q.1) : P (State.takeDispatchRead gate base r q).1 := by
  refine foldl_keeps (P := fun q : State × FillPlan => P q.1) (fun a j ha => ?_) _ h
  unfold State.dispatchSlot
  split
  · exact ha
  · split
    · exact ha
    · unfold State.answerDispatch
      split
      · exact ha
      · split
        · exact k.modify _ _ _ (fun _ => ⟨rfl, rfl⟩) ha
        · exact k.raise _ _ (k.modify _ _ (Entry.storeLate _) (fun _ => ⟨rfl, rfl⟩) ha)

/-- R111 to R117: a read's part in the print window. -/
theorem takePrintRead (k : KeptByChanges P) (printer : Option Nat) (base : Nat) (r : Request) (q : State × FillPlan)
    (h : P q.1) : P (State.takePrintRead printer base r q).1 := by
  refine foldl_keeps (P := fun q : State × FillPlan => P q.1) (fun a j ha => ?_) _ h
  unfold State.printSlot
  split
  · exact ha
  · split
    · exact ha
    · unfold State.answerPrint
      split
      · exact ha
      · exact k.modify _ _ _ (Entry.storePrint_sameClaim _) ha

theorem hold (k : KeptByChanges P) (h : P s) : P s.hold := k.raise _ _ (k.cancel s _ h)

theorem countMisprint (k : KeptByChanges P) (st : PrintStatus) (h : P s) : P (s.countMisprint st) := by
  unfold State.countMisprint
  split
  · exact k.cancel s _ h
  · simp only []
    split
    · exact k.hold (k.cancel s _ h)
    · exact k.cancel s _ h
  · exact h

/-- R119, R120: a status word that passed R118. -/
theorem takeStatus (k : KeptByChanges P) (p : Nat) (st : PrintStatus) (h : P s) : P (s.takeStatus p st) := by
  have held : P (if st.holds = true then s.hold else s) := by
    split
    · exact k.hold h
    · exact h
  unfold State.takeStatus
  simp only []
  split
  · exact k.raise _ _ held
  · split
    · exact k.countMisprint st (k.modify _ p _ (Entry.recordStatus_sameClaim st) held)
    · exact k.raise _ _ held

/-- R118: a write's part in the print status window. -/
theorem takeStatusWrite (k : KeptByChanges P) (printer : Option Nat) (base : Nat) (r : Request) (h : P s) :
    P (s.takeStatusWrite printer base r) := by
  unfold State.takeStatusWrite
  split
  · exact h
  · refine foldl_keeps (fun t j ht => ?_) _ h
    unfold State.statusWord
    split
    · exact k.raise _ _ ht
    · split
      · exact k.raise _ _ ht
      · simp only []
        split
        · exact k.raise _ _ ht
        · split
          · exact k.raise _ _ ht
          · exact k.takeStatus _ _ ht

end KeptByChanges

end Sys2Proof.Machine
end

section
/-! PROOF. O7: the kept generations that are not the newest are held, one at most, and in STANDBY the staged set is clean
(R75, R77, R78). -/

namespace Sys2Proof.Machine

/-- The generation laws, with what of the table's laws they rest on: in STANDBY the table is empty (R71). -/
structure State.GenerationsOrderly (s : State) : Prop where
  table : s.mode = .standby → s.entries = []
  law   : s.GenerationLaw

/-- R77: the kept generations that are not the newest are claimed. -/
def State.OlderClaimed (s : State) : Prop := ∀ g ∈ s.gens.older, s.claims g.number = true

theorem State.claims_of_entries {s t : State} (h : t.entries = s.entries) (n : Nat) : t.claims n = s.claims n := by
  rw [State.claims, h, State.claims]

theorem State.claims_nil {s : State} (h : s.entries = []) (n : Nat) : s.claims n = false := by
  rw [State.claims, h, List.any_nil]

/-- A change of entries that leaves their claims leaves every claim. -/
theorem State.claims_map {s t : State} {f : Entry → Entry} (ht : t.entries = s.entries.map f)
    (hf : ∀ e : Entry, e.SameClaim (f e)) (n : Nat) : t.claims n = s.claims n := by
  simp only [State.claims, ht, List.any_map, Function.comp_def, (hf _).generation, (hf _).running]

theorem State.claims_modifyEntry (s : State) (p : Nat) {f : Entry → Entry} (hf : ∀ e : Entry, e.SameClaim (f e))
    (n : Nat) : (s.modifyEntry p f).claims n = s.claims n := by
  refine State.claims_map (s := s) rfl (fun e => ?_) n
  split
  · exact hf e
  · exact .refl e

/-- R77: after a release every older generation that stands is claimed. -/
theorem State.releaseGenerations_olderClaimed (s : State) : s.releaseGenerations.OlderClaimed :=
  fun _ hg => (List.mem_filter.mp hg).2

theorem State.heldNumbers_length_le (s : State) : s.heldNumbers.length ≤ s.gens.older.length + 1 := by
  refine (List.length_filter_le _ _).trans ?_
  simp

/-- R77: with every older generation claimed, all of them are among the held numbers. -/
theorem State.heldNumbers_length (s : State) :
    ((s.gens.older ++ [s.gens.newest]).filter fun g => s.claims g.number).length = s.heldNumbers.length := by
  rw [State.heldNumbers, List.filter_map, List.length_map]
  rfl

namespace State.GenerationsOrderly

variable {s t : State}

/-- The same mode or one that is not STANDBY, with generations, emptiness of the table and claims as they were. -/
theorem of_same (h : s.GenerationsOrderly) (hm : t.mode = .standby → s.mode = .standby)
    (he : s.entries = [] → t.entries = []) (hc : ∀ n, t.claims n = s.claims n) (hg : t.gens = s.gens) :
    t.GenerationsOrderly where
  table hs := he (h.table (hm hs))
  law := ⟨fun g hgo => hc g.number ▸ h.law.held g (hg ▸ hgo), hg ▸ h.law.few, fun hs => hg ▸ h.law.standby (hm hs)⟩

/-- Mode, table and generations as they were. -/
theorem of_eq (h : s.GenerationsOrderly) (hm : t.mode = s.mode) (he : t.entries = s.entries) (hg : t.gens = s.gens) :
    t.GenerationsOrderly :=
  h.of_same (fun hs => hm ▸ hs) (fun hn => he.trans hn) (State.claims_of_entries he) hg

/-- The table and the generations as they were, in a mode that is not STANDBY. -/
theorem setMode (h : s.GenerationsOrderly) (hm : t.mode ≠ .standby) (he : t.entries = s.entries)
    (hg : t.gens = s.gens) : t.GenerationsOrderly :=
  h.of_same (fun hs => absurd hs hm) (fun hn => he.trans hn) (State.claims_of_entries he) hg

/-- R77: entries that leave or finish release their generations. -/
theorem release (h : s.GenerationsOrderly) (hm : t.mode = s.mode) (he : s.entries = [] → t.entries = [])
    (hg : t.gens = s.gens) : t.releaseGenerations.GenerationsOrderly where
  table hs := he (h.table (hm ▸ hs))
  law := ⟨t.releaseGenerations_olderClaimed, (List.length_filter_le _ _).trans (hg ▸ h.law.few),
    fun hs => show t.gens.dirty = false from hg ▸ h.law.standby (hm ▸ hs)⟩

/-- R78: on an empty table the staged set may be applied whatever its mark. -/
theorem applyStaged_nil (he : s.entries = []) : s.applyStaged.GenerationsOrderly where
  table _ := he
  law := by
    have ho : s.applyStaged.gens.older = [] :=
      List.filter_eq_nil_iff.mpr fun g _ => by simpa using State.claims_nil (by exact he) g.number
    exact ⟨fun g hg => absurd (ho ▸ hg) List.not_mem_nil, by rw [ho]; exact Nat.zero_le 1, fun _ => rfl⟩

/-- R83, R84: STANDBY on an empty table. -/
theorem enterStandby (he : s.entries = []) (h : s.OlderClaimed) : s.enterStandby.GenerationsOrderly := by
  unfold State.enterStandby State.applyStagedIfDirty
  split
  · exact applyStaged_nil he
  · rename_i hd
    have ho : s.gens.older = [] := List.eq_nil_iff_forall_not_mem.mpr fun g hg => by
      simpa [State.claims_nil he] using h g hg
    exact ⟨fun _ => he, ⟨h, show s.gens.older.length ≤ 1 by simp [ho], fun _ => by simpa using hd⟩⟩

theorem requestClose (h : s.GenerationsOrderly) (r : CloseReason) : (s.requestClose r).GenerationsOrderly :=
  h.of_eq (by simp) (by simp) (by simp)

theorem refuse (h : s.GenerationsOrderly) (r : RefusalReason) : (s.refuse r).GenerationsOrderly :=
  h.of_eq (by simp) (by simp) (by simp)

/-- R90: a retirement. -/
theorem retire (h : s.GenerationsOrderly) (c : RetireCause) (p : Nat) : (s.retire c p).GenerationsOrderly := by
  unfold State.retire
  split
  · exact h
  · have hr : (s.removeEntry p).GenerationsOrderly :=
      h.release (t := { s with zones := _, parsers := _, entries := s.entries.filter _ }) rfl
        (fun hn => by simp [hn]) rfl
    exact hr.of_eq (by simp) (by simp) (by simp)

theorem drainEndIfDue (h : s.GenerationsOrderly) : s.drainEndIfDue.GenerationsOrderly := by
  unfold State.drainEndIfDue
  split
  · rename_i hd
    exact enterStandby (by simp [hd.2]) (h.requestClose .drain).law.held
  · exact h

theorem forceOut (h : s.GenerationsOrderly) : s.forceOut.GenerationsOrderly := by
  unfold State.forceOut
  split
  · exact h
  · split
    · exact (h.retire _ _).of_eq rfl rfl rfl
    · exact h

/-- R75: the staged set is applied at an open while fewer than two generations are held, so that at most one older
generation is left held. -/
theorem generationAtOpen (h : s.GenerationsOrderly) : s.generationAtOpen.GenerationsOrderly := by
  unfold State.generationAtOpen
  split
  · rename_i hd
    have hfew : s.heldNumbers.length < 2 := by simpa using (Bool.and_eq_true_iff.mp hd).2
    rw [← State.heldNumbers_length] at hfew
    exact ⟨h.table, ⟨State.releaseGenerations_olderClaimed _, Nat.le_of_lt_succ hfew, fun _ => rfl⟩⟩
  · exact h

/-- R73: an open adds an entry, and with it at most a claim. -/
theorem openEntry (h : s.GenerationsOrderly) (hm : s.mode = .run) (p : Nat) : (s.openEntry p).GenerationsOrderly := by
  have hg := h.forceOut.generationAtOpen
  have hrun : (s.openEntry p).mode ≠ .standby := by
    rw [State.openEntry_mode, hm]
    decide
  refine ⟨fun hs => absurd hs hrun, ⟨fun g hgo => ?_, hg.law.few, fun hs => absurd hs hrun⟩⟩
  have hc : s.forceOut.generationAtOpen.claims g.number = true := hg.law.held g hgo
  unfold State.claims at hc ⊢
  simp only [State.openEntry, State.countOpened, List.any_append, hc, Bool.true_or]

theorem countUninspected (h : s.GenerationsOrderly) (p : Nat) : (s.countUninspected p).GenerationsOrderly := by
  unfold State.countUninspected
  split
  · exact h
  · exact h.of_eq rfl rfl rfl

/-- R157: a record is staged, or applied at once on the empty table of STANDBY. -/
theorem stage (h : s.GenerationsOrderly) (f : Settings → Settings) : (s.stage f).GenerationsOrderly := by
  unfold State.stage
  simp only []
  split
  · rename_i hs
    exact applyStaged_nil (h.table hs)
  · rename_i hs
    exact ⟨h.table, ⟨h.law.held, h.law.few, fun hm => absurd hm hs⟩⟩

/-- R79: after pin reset and RESTART no older generation is kept. -/
theorem of_reset (he : t.mode = .standby → t.entries = []) (hg : t.gens = Generations.reset) : t.GenerationsOrderly :=
  ⟨he, ⟨by rw [hg]; exact fun _ h => absurd h List.not_mem_nil, by rw [hg]; exact Nat.zero_le 1,
    fun _ => by rw [hg]; rfl⟩⟩

theorem directRun (h : s.GenerationsOrderly) : s.directRun.GenerationsOrderly := by
  unfold State.directRun
  split
  · exact h
  · exact h.setMode (by simp) rfl rfl
  · split
    · exact h.setMode (by simp [State.idleInspection]) rfl rfl
    · exact h.of_eq rfl rfl rfl

theorem directDrain (h : s.GenerationsOrderly) : s.directDrain.GenerationsOrderly := by
  unfold State.directDrain
  split
  · exact drainEndIfDue (h.setMode (t := { s with mode := .drain }) (by simp) rfl rfl)
  · exact h.refuse _

theorem directStby (h : s.GenerationsOrderly) : s.directStby.GenerationsOrderly := by
  unfold State.directStby
  split
  · exact h
  · have hr := foldl_keeps (P := State.GenerationsOrderly) (f := State.abortPiece) (fun t p ht => ht.retire .aborted p)
      (s.entries.map Entry.piece) h
    exact enterStandby (by simp [State.abortAll_entries]) (hr.requestClose .abort).law.held

theorem directRestart (h : s.GenerationsOrderly) : s.directRestart.GenerationsOrderly := by
  unfold State.directRestart
  split
  · exact of_reset h.table rfl
  · exact h.refuse _

theorem recordAnswered (h : s.GenerationsOrderly) (tag : Nat) (st : Status) :
    (s.recordAnswered tag st).GenerationsOrderly := by
  unfold State.recordAnswered
  split
  · exact h
  · rename_i q _
    have hq : (({ s with report := { s.report with queue := q.2 } } : State).raiseIf (decide (st = .err))
        .reportFault).GenerationsOrderly := h.of_eq (by simp) (by simp) (by simp)
    refine of_eq (s := _) ?_ (State.joinTrayRecord_mode _) (State.joinTrayRecord_entries _) (State.joinTrayRecord_gens _)
    split
    · exact hq.of_eq (by simp [State.releaseBank]) (by simp [State.releaseBank]) (by simp [State.releaseBank])
    · exact hq

theorem issueInjected (h : s.GenerationsOrderly) : s.issueInjected.GenerationsOrderly := by
  have spend : ∀ t : State, t.spendFree.entries = t.entries := fun t => by
    unfold State.spendFree
    split <;> rfl
  have he : s.issueInjected.entries = s.entries := by
    unfold State.issueInjected
    split
    · rfl
    · split
      · rfl
      · simp [spend]
  exact h.of_eq s.issueInjected_answer.mode he s.issueInjected_answer.gens

end State.GenerationsOrderly

/-- Inspection, answered reads and status words keep the laws of the generations: only the end of an inspection bears on
them, and it releases what it no longer claims. -/
theorem generationsOrderly_keptByChanges : KeptByChanges State.GenerationsOrderly where
  raise _ _ h := h.of_eq rfl rfl rfl
  parsers _ _ h := h.of_eq rfl rfl rfl
  zones _ _ h := h.of_eq rfl rfl rfl
  cancel _ _ h := h.of_eq rfl rfl rfl
  modify s p f hf h := h.of_same id (fun hn => by simp [State.modifyEntry, hn]) (s.claims_modifyEntry p hf) rfl
  finish s p h := h.release (t := { s.modifyEntry p _ with parsers := _ }) rfl
    (fun hn => by simp [State.modifyEntry, hn]) rfl

theorem generationsOrderly_keptByExits : KeptByExits State.GenerationsOrderly where
  raise _ _ h := h.of_eq rfl rfl rfl
  take s p st jam h := generationsOrderly_keptByChanges.modify s p _ (Entry.takeExit_sameClaim st jam) h
  retire _ c p h := h.retire c p
  age s l h := h.of_same id (fun hn => by simp [State.ageOlder, hn])
    (State.claims_map (s := s) rfl fun e => by split <;> exact ⟨rfl, rfl⟩) rfl
  drainEnd _ h := h.drainEndIfDue

/-- Every block keeps the laws of the generations. -/
theorem generationsOrderly_kept : Kept State.GenerationsOrderly where
  pending _ _ h := h.of_eq rfl rfl rfl
  path _ _ h := h.of_eq rfl rfl rfl
  status _ _ h := h.of_eq rfl rfl rfl
  suspend _ h := h.of_eq rfl rfl rfl
  resume _ h := h.of_eq rfl rfl rfl
  release _ h := h.of_eq rfl rfl rfl
  shadows _ _ h := h.of_eq rfl rfl rfl
  lanes _ _ h := h.of_eq rfl rfl rfl
  alarm _ _ h := h.of_eq rfl rfl rfl
  map s m h := by
    unfold State.takeMemoryMap
    repeat' split
    all_goals first | exact h.refuse _ | exact h.of_eq rfl rfl rfl
  sources s m h := by
    unfold State.takeSourceTable
    repeat' split
    all_goals first | exact h.refuse _ | exact h.of_eq rfl rfl rfl
  correction s m h := by
    unfold State.takeCorrection
    split
    · exact h.stage _
    · exact h.refuse _
  classTest s m h := by
    unfold State.takeClassTest
    split
    · exact h.stage _
    · exact h.refuse _
  geometry s m h := by
    unfold State.takeGeometry
    split
    · exact h.stage _
    · exact h.refuse _
  decision s m h := by
    unfold State.takeDecision
    split
    · exact h.stage _
    · exact h.refuse _
  traySet s m h := by
    unfold State.takeTraySet
    repeat' split
    all_goals first | exact h.refuse _ | exact h.of_eq rfl rfl rfl
  run _ h := h.directRun
  drain _ h := h.directDrain
  stby _ h := h.directStby
  restart _ h := h.directRestart
  tclose _ h := h.requestClose _
  drainEnd _ h := h.drainEndIfDue
  settle _ h := h.of_eq (by simp) (by simp) (by simp)
  join _ h := h.of_eq (by simp) (by simp) (by simp)
  image s src sd base r h := by
    unfold State.offerImage
    split
    · exact generationsOrderly_keptByChanges.takeImageWrite (fun _ p hm hs => hs.openEntry hm p)
        (fun _ p hs => hs.countUninspected p) sd base r h
    · exact h
  exit _ gate base r h := generationsOrderly_keptByExits.takeExitWrite gate base r h
  print _ printer base r h := generationsOrderly_keptByChanges.takeStatusWrite printer base r h
  dispatch gate base r q h := generationsOrderly_keptByChanges.takeDispatchRead gate base r q h
  printRead printer base r q h := generationsOrderly_keptByChanges.takePrintRead printer base r q h
  injected _ h := h.issueInjected
  answered _ tag st h := h.recordAnswered tag st
  reset _ _ _ := .of_reset (fun _ => rfl) rfl

/-- Settles O7: each block keeps the laws, so every step does; the held numbers are those of the older generations, one at
most, and perhaps the newest. -/
theorem stepKeepsGenerationLaw : Obligations.StepKeepsGenerationLaw := by
  intro s t htable hgens hstep
  have ht := (generationsOrderly_kept.step (s := s) ⟨htable.standby, hgens⟩ hstep).law
  exact ⟨ht, t.heldNumbers_length_le.trans (Nat.succ_le_succ ht.few)⟩

end Sys2Proof.Machine
end

section
/-! PROOF. O14: the captured placement stays in order, and captured while the mode is RUN or DRAIN (R81, R159 to R161). -/

namespace Sys2Proof

open Sys2Proof.Machine

/-- R161: the source table of a record in range. -/
theorem SourceTableRecord.table_inRange {m : SourceTableRecord} (h : m.inRange = true) :
    (∀ sd, m.table.heads.get sd ≤ 14) ∧ m.table.gate ≤ 14 ∧ m.table.printer ≤ 14 ∧
      m.table.heads.face ≠ m.table.heads.back ∧ m.table.hosts ≠ 0 := by
  simp only [SourceTableRecord.inRange, Bool.and_eq_true, decide_eq_true_eq] at h
  obtain ⟨⟨⟨⟨⟨hface, hback⟩, hgate⟩, hprinter⟩, hheads⟩, hhosts⟩ := h
  exact ⟨fun sd => by cases sd <;> assumption, hgate, hprinter, fun he => hheads (BitVec.eq_of_toNat_eq he), hhosts⟩

end Sys2Proof

namespace Sys2Proof.Machine

/-! ### The mode after an operation -/

theorem State.stage_mode (s : State) (f : Settings → Settings) : (s.stage f).mode = s.mode := (s.stage_shrink f).mode

theorem State.stage_setup (s : State) (f : Settings → Settings) : (s.stage f).setup = s.setup := by
  unfold State.stage
  simp only []
  split <;> rfl

@[simp] theorem State.enterStandby_mode (s : State) : s.enterStandby.mode = .standby := by
  simp [State.enterStandby, State.idleInspection]

/-- R83: a drain end is the only way it leads from DRAIN. -/
theorem State.drainEndIfDue_mode_ne {s : State} (h : s.drainEndIfDue.mode ≠ .standby) : s.mode ≠ .standby := by
  unfold State.drainEndIfDue at h
  split at h
  · exact absurd (State.enterStandby_mode _) h
  · exact h

theorem State.directStby_track (s : State) : TrackFrame s s.directStby := by
  unfold State.directStby
  split
  · exact .refl s
  · exact ((foldl_frame TrackFrame.refl (fun _ _ _ => TrackFrame.trans) (fun s p => s.retire_track .aborted p) _
      s).trans (State.requestClose_track _ _)).trans (State.enterStandby_track _)

theorem State.directStby_mode (s : State) : s.directStby.mode = .standby := by
  unfold State.directStby
  split
  · assumption
  · exact State.enterStandby_mode _

theorem State.recordAnswered_setup (s : State) (tag : Nat) (st : Status) : (s.recordAnswered tag st).setup = s.setup := by
  unfold State.recordAnswered
  split
  · rfl
  · simp only [State.joinTrayRecord_setup]
    split <;> simp [State.releaseBank]

theorem State.issueInjected_setup (s : State) : s.issueInjected.setup = s.setup := by
  have spend : ∀ t : State, t.spendFree.setup = t.setup := fun t => by
    unfold State.spendFree
    split <;> rfl
  unfold State.issueInjected
  split
  · rfl
  · split
    · rfl
    · simp [spend]

/-- R81: RUN's preconditions include both once-only records. -/
theorem State.captured_of_runRefusal {s : State} (h : s.runRefusal = .none) :
    s.setup.map ≠ none ∧ s.setup.sources ≠ none := by
  unfold State.runRefusal at h
  split at h
  · cases h
  · split at h
    · cases h
    · exact ⟨‹_›, ‹_›⟩

/-! ### The law -/

namespace State.PlacementLaw

variable {s t : State}

/-- Straps, map and source table as they were, in a mode in which they were captured already. -/
theorem of_same (h : s.PlacementLaw) (hm : t.mode ≠ .standby → s.mode ≠ .standby) (hmap : t.setup.map = s.setup.map)
    (hsrc : t.setup.sources = s.setup.sources) (hst : t.setup.straps = s.setup.straps) : t.PlacementLaw where
  running hr := by
    rw [hmap, hsrc]
    exact h.running (hm hr)
  map m hmm := by
    rw [hst]
    exact h.map m (hmap ▸ hmm)
  sources x hx := h.sources x (hsrc ▸ hx)

/-- The setup unit as it was, in a mode in which the placement was captured already. -/
theorem of_setup (h : s.PlacementLaw) (hm : t.mode ≠ .standby → s.mode ≠ .standby) (hs : t.setup = s.setup) :
    t.PlacementLaw :=
  h.of_same hm (by rw [hs]) (by rw [hs]) (by rw [hs])

/-- Mode and setup unit as they were. -/
theorem of_eq (h : s.PlacementLaw) (hm : t.mode = s.mode) (hs : t.setup = s.setup) : t.PlacementLaw :=
  h.of_setup (fun hr => hm ▸ hr) hs

theorem refuse (h : s.PlacementLaw) (r : RefusalReason) : (s.refuse r).PlacementLaw := h.of_eq (by simp) (by simp)

theorem stage (h : s.PlacementLaw) (f : Settings → Settings) : (s.stage f).PlacementLaw :=
  h.of_eq (s.stage_mode f) (s.stage_setup f)

theorem drainEndIfDue (h : s.PlacementLaw) : s.drainEndIfDue.PlacementLaw :=
  h.of_setup State.drainEndIfDue_mode_ne s.drainEndIfDue_track.setup

/-- R160: a map is taken in STANDBY, in range and placed apart. -/
theorem takeMemoryMap (h : s.PlacementLaw) (m : MemoryMapRecord) : (s.takeMemoryMap m).PlacementLaw := by
  unfold State.takeMemoryMap
  split
  · exact h.refuse _
  · rename_i hs
    split
    · exact h.refuse _
    · split
      · exact h.refuse _
      · rename_i hrange
        split
        · exact h.refuse _
        · rename_i hplaced
          refine ⟨fun hr => absurd hr hs, fun n hn => ?_, h.sources⟩
          injection hn with hn
          subst hn
          exact ⟨by simpa using hrange, by simpa using hplaced⟩

/-- R161: a source table is taken in STANDBY, in range. -/
theorem takeSourceTable (h : s.PlacementLaw) (m : SourceTableRecord) : (s.takeSourceTable m).PlacementLaw := by
  unfold State.takeSourceTable
  split
  · exact h.refuse _
  · rename_i hs
    split
    · exact h.refuse _
    · split
      · exact h.refuse _
      · rename_i hrange
        refine ⟨fun hr => absurd hr hs, h.map, fun x hx => ?_⟩
        injection hx with hx
        subst hx
        exact SourceTableRecord.table_inRange (by simpa using hrange)

/-- R81: RUN is taken with both records captured. -/
theorem directRun (h : s.PlacementLaw) : s.directRun.PlacementLaw := by
  unfold State.directRun
  split
  · exact h
  · rename_i hd
    exact h.of_setup (fun _ => by simp [hd]) rfl
  · split
    · rename_i hr
      exact ⟨fun _ => State.captured_of_runRefusal hr, h.map, h.sources⟩
    · exact h.of_eq rfl rfl

theorem directDrain (h : s.PlacementLaw) : s.directDrain.PlacementLaw := by
  unfold State.directDrain
  split
  · rename_i hr
    exact drainEndIfDue (h.of_setup (t := { s with mode := .drain }) (fun _ => by simp [hr]) rfl)
  · exact h.refuse _

end State.PlacementLaw

theorem placementLaw_keptByInspection : KeptByInspection State.PlacementLaw where
  inspect _ _ f h := h.of_eq f.mode f.setup
  opens s p _ _ h := h.of_eq (s.openEntry_mode p) (s.openEntry_track p).setup
  counts s p h := h.of_eq (s.countUninspected_shrink p).mode (s.countUninspected_track p).setup

theorem placementLaw_keptByExits : KeptByExits State.PlacementLaw where
  raise _ _ h := h.of_eq rfl rfl
  take _ _ _ _ h := h.of_eq rfl rfl
  retire s c p h := h.of_eq (s.retire_mode c p) (s.retire_track c p).setup
  age _ _ h := h.of_eq rfl rfl
  drainEnd _ h := h.drainEndIfDue

/-- Every block keeps the placement. -/
theorem placementLaw_kept : Kept State.PlacementLaw where
  pending _ _ h := h.of_eq rfl rfl
  path _ _ h := h.of_eq rfl rfl
  status _ _ h := h.of_eq rfl rfl
  suspend _ h := h.of_eq rfl rfl
  resume _ h := h.of_eq rfl rfl
  release _ h := h.of_eq rfl rfl
  shadows _ _ h := h.of_same id rfl rfl rfl
  lanes _ _ h := h.of_same id rfl rfl rfl
  alarm _ _ h := h.of_same id rfl rfl rfl
  map _ m h := h.takeMemoryMap m
  sources _ m h := h.takeSourceTable m
  correction s m h := by
    unfold State.takeCorrection
    split
    · exact h.stage _
    · exact h.refuse _
  classTest s m h := by
    unfold State.takeClassTest
    split
    · exact h.stage _
    · exact h.refuse _
  geometry s m h := by
    unfold State.takeGeometry
    split
    · exact h.stage _
    · exact h.refuse _
  decision s m h := by
    unfold State.takeDecision
    split
    · exact h.stage _
    · exact h.refuse _
  traySet s m h := by
    unfold State.takeTraySet
    split
    · split
      · exact h.of_eq rfl rfl
      · exact h.of_eq rfl rfl
    · exact h.refuse _
  run _ h := h.directRun
  drain _ h := h.directDrain
  stby s h := h.of_setup (fun hr => absurd s.directStby_mode hr) s.directStby_track.setup
  restart s h := by
    unfold State.directRestart
    split
    · exact h.of_eq rfl rfl
    · exact h.refuse _
  tclose _ h := h.of_eq (by simp) (by simp)
  drainEnd _ h := h.drainEndIfDue
  settle _ h := h.of_eq (by simp) (by simp)
  join _ h := h.of_eq (by simp) (by simp)
  image s src sd base r h := by
    unfold State.offerImage
    split
    · exact placementLaw_keptByInspection.takeImageWrite sd base r h
    · exact h
  exit _ gate base r h := placementLaw_keptByExits.takeExitWrite gate base r h
  print s printer base r h :=
    h.of_eq (s.takeStatusWrite_answer printer base r).mode (s.takeStatusWrite_status printer base r).setup
  dispatch gate base r q h :=
    h.of_eq (State.takeDispatchRead_answer gate base r q).mode (State.takeDispatchRead_track gate base r q).setup
  printRead printer base r q h :=
    h.of_eq (State.takePrintRead_answer printer base r q).mode (State.takePrintRead_track printer base r q).setup
  injected s h := h.of_eq s.issueInjected_answer.mode s.issueInjected_setup
  answered s tag st h := h.of_eq (s.recordAnswered_shrink tag st).mode (s.recordAnswered_setup tag st)
  reset _ straps _ := (State.placementLaw_resetWith straps).of_eq rfl rfl

/-- Settles O14: each block keeps the law, so every step does. -/
theorem stepKeepsPlacementLaw : Obligations.StepKeepsPlacementLaw := fun _ _ h e => placementLaw_kept.step h e

end Sys2Proof.Machine
end

section
/-! PROOF. O32: the end of a drain on an empty table (R82, R83, R130, R133, R78). -/

namespace Sys2Proof.Machine

/-- R83: a drain that is due to end asks for its close and comes to rest. -/
theorem State.drainEndIfDue_eq_atRest {s : State} (hm : s.mode = .drain) (he : s.entries = [])
    (ht : s.tally.other = .free → s.NoTrayQueued) : s.drainEndIfDue = (s.closeAsked .drain).atRest := by
  have hc := State.requestClose_eq_closeAsked ht .drain
  rw [State.drainEndIfDue, if_pos ⟨hm, he⟩, State.drainEnd, State.enterStandby_eq_atRest (by simp [he]), hc]

/-- R82: DRAIN in RUN. -/
theorem State.directDrain_run {s : State} (hm : s.mode = .run) :
    s.directDrain = ({ s with mode := .drain } : State).drainEndIfDue := by
  simp only [State.directDrain, hm]

/-- R82: DRAIN out of place. -/
theorem State.directDrain_refused {s : State} (hm : s.mode ≠ .run) : s.directDrain = s.refusedFor .wrongMode := by
  rw [← s.refuse_eq_refusedFor (by decide)]
  unfold State.directDrain
  split
  · exact absurd ‹_› hm
  · rfl

/-- R83: the rest that a state comes to does not depend on the mode before. -/
theorem State.closeAsked_atRest_mode (s : State) (m : Mode) (r : CloseReason) :
    (({ s with mode := m } : State).closeAsked r).atRest = (s.closeAsked r).atRest := by
  unfold State.closeAsked
  split <;> rfl

/-- R82, R83: DRAIN in RUN, and DRAIN_END in DRAIN, on an empty table. -/
theorem State.drainEnds {s : State} (he : s.entries = []) (ht : s.tally.other = .free → s.NoTrayQueued) :
    (s.mode = .run → exec .drain s = .next (s.closeAsked .drain).atRest) ∧
      (s.mode = .drain → exec .drainEnd s = .next (s.closeAsked .drain).atRest) := by
  refine ⟨fun hm => congrArg Host.Outcome.next ?_, fun hm => congrArg Host.Outcome.next ?_⟩
  · rw [State.directDrain_run hm, State.drainEndIfDue_eq_atRest (s := { s with mode := .drain }) rfl he ht,
      State.closeAsked_atRest_mode]
  · exact State.drainEndIfDue_eq_atRest hm he ht

/-- Settles O32: by the mode, the table, and the bank that is not ACTIVE. -/
theorem drainEndsOnAnEmptyTable : Obligations.DrainEndsOnAnEmptyTable := by
  refine ⟨fun s hm he => congrArg Host.Outcome.next ?_, fun s hm => congrArg Host.Outcome.next ?_,
    fun s h => congrArg Host.Outcome.next ?_, fun s he hf ht => ?_, fun s he hf => ?_⟩
  · rw [State.directDrain_run hm]
    exact State.drainEndIfDue_eq_self fun _ => he
  · exact State.directDrain_refused hm
  · exact State.drainEndIfDue_eq_self fun hm => h.resolve_left (not_not.mpr hm)
  · have hc : s.closeAsked .drain = s.trayClosed .drain .none := if_pos hf
    exact hc ▸ State.drainEnds he fun _ => ht
  · have hc : s.closeAsked .drain = s.closeWaits .drain := if_neg hf
    exact hc ▸ State.drainEnds he fun h => absurd h hf

end Sys2Proof.Machine
end

section
/-! SUPPORT. What entries that leave the table one after another leave behind: `Departures k n` says what `n` retirements in
the category `k` do to the counters, the record sequence and the generations, tray closes in between or not (R90, R126,
R132, R138). -/

namespace Sys2Proof.Machine

/-! ### Counters counted up several times (R126) -/

theorem stepUpBy_zero (c : Nat) : stepUpBy 0 c = c := by
  unfold stepUpBy
  omega

theorem stepUpBy_add (m n c : Nat) : stepUpBy n (stepUpBy m c) = stepUpBy (m + n) c := by
  unfold stepUpBy
  omega

/-- A category counted `n` times. -/
def TallyUnit.countedBy (n : Nat) (k : Fin 12) (t : TallyUnit) : TallyUnit :=
  { t with
    counts := t.counts.set k (stepUpBy n t.counts[k])
    totals := t.totals.set k (stepUpBy n t.totals[k]) }

theorem TallyUnit.countedBy_zero (k : Fin 12) (t : TallyUnit) : t.countedBy 0 k = t := by
  simp [TallyUnit.countedBy, stepUpBy_zero]

theorem TallyUnit.countedBy_one (k : Fin 12) (t : TallyUnit) : t.countedBy 1 k = t.counted k := rfl

theorem TallyUnit.countedBy_add (m n : Nat) (k : Fin 12) (t : TallyUnit) :
    (t.countedBy m k).countedBy n k = t.countedBy (m + n) k := by
  simp [TallyUnit.countedBy, stepUpBy_add, Vector.set_set]

/-- A category counted leaves the others. -/
theorem TallyUnit.countedBy_ne {k j : Fin 12} (h : k ≠ j) (n : Nat) (t : TallyUnit) :
    (t.countedBy n k).counts[j] = t.counts[j] ∧ (t.countedBy n k).totals[j] = t.totals[j] := by
  have hne : (k : Nat) ≠ j := fun hv => h (Fin.ext hv)
  simp [TallyUnit.countedBy, hne]

/-! ### What a tray close leaves as it was -/

/-- A tray close leaves the totals, the opened counter and the record sequence. -/
structure CloseFrame (s t : State) : Prop where
  totals : t.tally.totals = s.tally.totals
  opened : t.tally.opened = s.tally.opened
  seq    : t.report.seq = s.report.seq

theorem CloseFrame.refl (s : State) : CloseFrame s s := ⟨rfl, rfl, rfl⟩

theorem State.joinTrayRecord_seq (s : State) : s.joinTrayRecord.report.seq = s.report.seq := by
  unfold State.joinTrayRecord
  split
  · split <;> rfl
  · rfl

/-- R133: the tally unit after an executed close. -/
theorem State.executeClose_tally (s : State) (r : CloseReason) (m : SealMark) :
    (s.executeClose r m).tally = { s.tally with
      active := s.tally.active.flip
      counts := Vector.replicate 12 0
      other := .sealed s.tally.counts
        { trayNumber := s.tally.trayNumber, reason := r, mark := m, recordSeq := s.report.seq }
      trayNumber := s.tally.trayNumber + 1 } := by
  simp [State.executeClose, Counts.zero]

/-- R135: the tray sets after an executed close. -/
theorem State.executeClose_trays (s : State) (r : CloseReason) (m : SealMark) :
    (s.executeClose r m).trays =
      { s.trays with inForce := if s.trays.dirty then s.trays.staged else s.trays.inForce, dirty := false } := by
  have applied : ∀ t : State, t.applyTraySetIfDirty.trays =
      { t.trays with inForce := if t.trays.dirty then t.trays.staged else t.trays.inForce, dirty := false } := fun t => by
    cases ht : t.trays with
    | mk inForce staged dirty => cases dirty <;> simp [State.applyTraySetIfDirty, ht]
  rw [State.executeClose, State.joinTrayRecord_trays, applied]

theorem State.executeClose_frame (s : State) (r : CloseReason) (m : SealMark) : CloseFrame s (s.executeClose r m) where
  totals := by rw [State.executeClose_tally]
  opened := by rw [State.executeClose_tally]
  seq := by simp [State.executeClose, State.joinTrayRecord_seq]

/-- R130: a close request where the other bank is not FREE. -/
theorem State.requestClose_eq_closeWaits {s : State} (h : s.tally.other ≠ .free) (r : CloseReason) :
    s.requestClose r = s.closeWaits r :=
  (State.requestClose_eq_closeAsked (fun hf => absurd hf h) r).trans (if_neg h)

/-- R130: a close request where the other bank is FREE. -/
theorem State.requestClose_eq_executeClose {s : State} (h : s.tally.other = .free) (r : CloseReason) :
    s.requestClose r = s.executeClose r .none := by
  unfold State.requestClose
  rw [h]

theorem State.requestClose_frame (s : State) (r : CloseReason) : CloseFrame s (s.requestClose r) := by
  by_cases h : s.tally.other = .free
  · rw [State.requestClose_eq_executeClose h]
    exact s.executeClose_frame r .none
  · rw [State.requestClose_eq_closeWaits h]
    exact ⟨rfl, rfl, rfl⟩

theorem State.limitCheck_frame (s : State) : CloseFrame s s.limitCheck := by
  unfold State.limitCheck
  split
  · exact s.requestClose_frame .limit
  · exact .refl s

theorem State.limitCheck_eq_self {s : State} (h : s.trays.inForce.pieceLimit = 0) : s.limitCheck = s :=
  if_neg fun hl => hl.1 h

/-! ### Retirements -/

/-- What `n` retirements in the category `k` leave behind. With no tray limit no tray closes, and the tally unit has counted
them in its ACTIVE bank too. -/
structure Departures (k : Fin 12) (n : Nat) (s t : State) : Prop where
  totals    : t.tally.totals = s.tally.totals.set k (stepUpBy n s.tally.totals[k])
  opened    : t.tally.opened = s.tally.opened
  seq       : t.report.seq = s.report.seq + BitVec.ofNat 32 n
  uncounted : t.lastUninspected = s.lastUninspected
  mode      : t.mode = s.mode
  gens      : t.gens = { s.gens with older := t.gens.older }
  reasons   : t.status.setupReason = s.status.setupReason ∧ t.status.runReason = s.status.runReason
  unlimited : s.trays.inForce.pieceLimit = 0 → t.tally = s.tally.countedBy n k ∧ t.trays = s.trays

theorem Departures.refl (k : Fin 12) (s : State) : Departures k 0 s s where
  totals := by simp [stepUpBy_zero]
  opened := rfl
  seq := by simp
  uncounted := rfl
  mode := rfl
  gens := rfl
  reasons := ⟨rfl, rfl⟩
  unlimited _ := ⟨(TallyUnit.countedBy_zero k _).symm, rfl⟩

theorem Departures.trans {k : Fin 12} {m n : Nat} {s t u : State} (h : Departures k m s t) (g : Departures k n t u) :
    Departures k (m + n) s u where
  totals := by simp [g.totals, h.totals, stepUpBy_add, Vector.set_set]
  opened := g.opened.trans h.opened
  seq := by rw [g.seq, h.seq, BitVec.ofNat_add, BitVec.add_assoc]
  uncounted := g.uncounted.trans h.uncounted
  mode := g.mode.trans h.mode
  gens := by rw [g.gens, h.gens]
  reasons := ⟨g.reasons.1.trans h.reasons.1, g.reasons.2.trans h.reasons.2⟩
  unlimited hl := by
    obtain ⟨htally, htrays⟩ := h.unlimited hl
    obtain ⟨gtally, gtrays⟩ := g.unlimited (htrays ▸ hl)
    exact ⟨by rw [gtally, htally, TallyUnit.countedBy_add], gtrays.trans htrays⟩

/-- R138: the record sequence after a piece record's formation. -/
theorem State.formPieceRecord_seq (s : State) (e : Entry) (d : Disposition) :
    (s.formPieceRecord e d).report.seq = s.report.seq + 1 := by
  unfold State.formPieceRecord
  simp only []
  split <;> rfl

theorem State.formPieceRecord_reasons (s : State) (e : Entry) (d : Disposition) :
    (s.formPieceRecord e d).status.setupReason = s.status.setupReason ∧
      (s.formPieceRecord e d).status.runReason = s.status.runReason := by
  unfold State.formPieceRecord
  simp only []
  split <;> exact ⟨rfl, rfl⟩

/-- R90: the state of a retirement before its limit check. -/
def State.recorded (s : State) (c : RetireCause) (e : Entry) : State :=
  ((s.removeEntry e.piece).count (e.dispositionFor c).code).formPieceRecord (e.retired c) (e.dispositionFor c)

theorem State.retire_eq_recorded {s : State} {p : Nat} {e : Entry} (h : s.entry? p = some e) (c : RetireCause) :
    s.retire c p = (s.recorded c e).limitCheck := by
  have hp := (State.entry?_spec h).2
  subst hp
  rw [State.retire, h]
  rfl

theorem State.recorded_tally (s : State) (c : RetireCause) (e : Entry) :
    (s.recorded c e).tally = s.tally.countedBy 1 (e.dispositionFor c).code := by
  rw [State.recorded, State.formPieceRecord_tally, TallyUnit.countedBy_one, ← TallyUnit.count_eq_counted]
  rfl

/-- R90: one retirement. -/
theorem State.retire_departs {s : State} {p : Nat} {e : Entry} (h : s.entry? p = some e) (c : RetireCause) :
    Departures (e.dispositionFor c).code 1 s (s.retire c p) := by
  rw [State.retire_eq_recorded h]
  have frame := (s.recorded c e).limitCheck_frame
  have tally := s.recorded_tally c e
  have reasons := State.formPieceRecord_reasons ((s.removeEntry e.piece).count (e.dispositionFor c).code) (e.retired c)
    (e.dispositionFor c)
  exact {
    totals := by rw [frame.totals, tally]; rfl
    opened := by rw [frame.opened, tally]; rfl
    seq := frame.seq.trans (State.formPieceRecord_seq _ _ _)
    uncounted := by simp [State.recorded]
    mode := by simp [State.recorded]
    gens := by simp [State.recorded, State.removeEntry, State.releaseGenerations]
    reasons := by rw [State.limitCheck_status]; exact reasons
    unlimited := fun hl => by
      have trays : (s.recorded c e).trays = s.trays := by simp [State.recorded]
      rw [State.limitCheck_eq_self (by rw [trays, hl])]
      exact ⟨tally, trays⟩ }

/-- R165: a retirement sets no flag but RECORD_DROP. -/
theorem State.retire_flagSet (s : State) (c : RetireCause) (p : Nat) {f : Flag} (hf : f ≠ .recordDrop) :
    (s.retire c p).flagSet f = s.flagSet f := by
  cases h : s.entry? p with
  | none => rw [State.retire, h]
  | some e =>
    have status : (s.retire c p).status = (s.recorded c e).status := by
      rw [State.retire_eq_recorded h, State.limitCheck_status]
    unfold State.flagSet
    rw [status]
    unfold State.recorded State.formPieceRecord
    simp only []
    split
    · rfl
    · refine (State.flagSet_raise _ .recordDrop f).trans ?_
      simp only [hf, decide_false, Bool.false_or]
      rfl

/-- R84, R89: entries that retire one after another in one category. -/
theorem foldl_departures {k : Fin 12} {f : State → Nat → State}
    (hf : ∀ s p, p ∈ s.pieces → Departures k 1 s (f s p))
    (he : ∀ s p, (f s p).entries = s.entries.filter fun e => decide (e.piece ≠ p)) (l : List Nat) :
    ∀ s : State, l.Nodup → (∀ p ∈ l, p ∈ s.pieces) →
      Departures k l.length s (l.foldl f s) ∧
        (l.foldl f s).entries = s.entries.filter fun e => decide (e.piece ∉ l) := by
  induction l with
  | nil => exact fun s _ _ => ⟨.refl k s, by simp⟩
  | cons p ps ih =>
    intro s hd hm
    obtain ⟨hp, hps⟩ := List.nodup_cons.mp hd
    have left : ∀ q ∈ ps, q ∈ (f s p).pieces := fun q hq => by
      obtain ⟨e, hes, heq⟩ := List.mem_map.mp (hm q (List.mem_cons_of_mem _ hq))
      refine List.mem_map.mpr ⟨e, ?_, heq⟩
      rw [he]
      exact List.mem_filter.mpr ⟨hes, decide_eq_true fun hep => hp (hep ▸ heq ▸ hq)⟩
    obtain ⟨dep, ent⟩ := ih (f s p) hps left
    refine ⟨?_, ?_⟩
    · rw [List.length_cons, Nat.add_comm]
      exact (hf s p (hm p List.mem_cons_self)).trans dep
    · rw [List.foldl_cons, ent, he, List.filter_filter]
      refine List.filter_congr fun e _ => ?_
      simp [Bool.and_comm]

end Sys2Proof.Machine
end

section
/-! PROOF. O33: STBY retires every entry ABORTED and closes the tray (R84, R78, R130, R133, R138; log entry 9). -/

namespace Sys2Proof.Machine

theorem State.abortPiece_departs (s : State) (p : Nat) (h : p ∈ s.pieces) :
    Departures Disposition.aborted.code 1 s (s.abortPiece p) := by
  obtain ⟨e, he⟩ := State.entry?_of_mem_pieces h
  exact State.retire_departs he .aborted

/-- R84 step 1: the state once every entry has retired ABORTED. -/
def State.allAborted (s : State) : State := (s.entries.map Entry.piece).foldl State.abortPiece s

theorem State.allAborted_departs {s : State} (h : s.pieces.Nodup) :
    Departures Disposition.aborted.code s.entries.length s s.allAborted := by
  have := (foldl_departures State.abortPiece_departs (fun s p => s.retire_entries .aborted p) s.pieces s h
    fun _ => id).1
  rwa [State.length_pieces] at this

theorem State.allAborted_flagSet (s : State) {f : Flag} (hf : f ≠ .recordDrop) :
    s.allAborted.flagSet f = s.flagSet f :=
  foldl_frame (R := fun s t : State => t.flagSet f = s.flagSet f) (fun _ => rfl) (fun _ _ _ h k => k.trans h)
    (fun s p => s.retire_flagSet .aborted p hf) _ s

/-- R84: STBY, once every entry has retired. -/
theorem State.directStby_eq_atRest {s : State} (h : s.mode ≠ .standby) :
    s.directStby = (s.allAborted.requestClose .abort).atRest := by
  have hn : (s.allAborted.requestClose .abort).entries = [] := by simp [State.allAborted, State.abortAll_entries]
  rw [← State.enterStandby_eq_atRest hn]
  unfold State.directStby
  split
  · exact absurd ‹_› h
  · rfl

/-- R77: with no entry left no older generation is kept. -/
theorem State.allAborted_older {s : State} (h : s.GenerationsOrderly) : s.allAborted.gens.older = [] := by
  have hr : s.allAborted.GenerationsOrderly := foldl_keeps (fun _ p ht => ht.retire .aborted p) _ h
  refine List.eq_nil_iff_forall_not_mem.mpr fun g hg => ?_
  have claimed := hr.law.held g hg
  rw [State.claims_nil (s := s.allAborted) s.abortAll_entries] at claimed
  cases claimed

/-- R78, R84: the generations after STBY. -/
theorem State.directStby_gens {s : State} (hm : s.mode ≠ .standby) (ht : s.TableLaw) (hg : s.GenerationLaw) :
    s.directStby.gens.dirty = false ∧ s.directStby.gens.older = [] ∧ s.directStby.gens.newest =
      (if s.gens.dirty then { number := (s.gens.newest.number + 1) % 256, settings := s.gens.staged }
        else s.gens.newest) := by
  have gens : s.allAborted.gens = { s.gens with older := [] } := by
    rw [(State.allAborted_departs ht.distinct).gens, State.allAborted_older ⟨ht.standby, hg⟩]
  rw [State.directStby_eq_atRest hm]
  simp only [State.atRest, State.requestClose_gens, gens]
  cases hd : s.gens.dirty <;> simp [Generations.applied]

/-- R130, R133: the tray of an abort, with no tray limit. -/
theorem State.allAborted_close {s : State} {u : State} {n : Nat} (ht : u.tally = s.tally.countedBy n 10)
    (htrays : u.trays = s.trays) (hseq : u.report.seq = s.report.seq + BitVec.ofNat 32 n) :
    let t := u.requestClose .abort
    let counts := s.tally.counts.set 10 (stepUpBy n s.tally.counts[10])
    (s.tally.other = .free → t.tally.active = s.tally.active.flip ∧ t.tally.counts = Vector.replicate 12 0 ∧
      t.tally.other = .sealed counts
        { trayNumber := s.tally.trayNumber, reason := .abort, mark := .none
          recordSeq := s.report.seq + BitVec.ofNat 32 n } ∧
      t.tally.trayNumber = s.tally.trayNumber + 1 ∧ t.tally.pending = s.tally.pending ∧
      t.trays = { s.trays with inForce := if s.trays.dirty then s.trays.staged else s.trays.inForce, dirty := false }) ∧
    (s.tally.other ≠ .free → t.tally.active = s.tally.active ∧ t.tally.counts = counts ∧
      t.tally.other = s.tally.other ∧ t.tally.trayNumber = s.tally.trayNumber ∧
      t.tally.pending = some (Pending.asked .abort s.tally.pending) ∧ t.trays = s.trays) := by
  have other : u.tally.other = s.tally.other := by rw [ht]; rfl
  refine ⟨fun hf => ?_, fun hf => ?_⟩
  · rw [State.requestClose_eq_executeClose (other.trans hf), State.executeClose_tally, State.executeClose_trays, ht, htrays,
      hseq]
    exact ⟨rfl, rfl, rfl, rfl, rfl, rfl⟩
  · rw [State.requestClose_eq_closeWaits (other ▸ hf)]
    simp only [State.closeWaits, ht, htrays]
    exact ⟨rfl, rfl, rfl, rfl, rfl, trivial⟩

/-- Settles O33: every entry retires in turn, one close is asked, and the state comes to rest. -/
theorem stbyAbortsEveryEntry : Obligations.StbyAbortsEveryEntry := by
  refine ⟨fun s hm => congrArg Host.Outcome.next (by simp only [State.directStby, hm]), fun s hm ht hg =>
    ⟨s.directStby, rfl, s.directStby_mode, ?_⟩⟩
  have rest := State.directStby_eq_atRest hm
  have track := s.directStby_track
  have dep := State.allAborted_departs ht.distinct
  have frame := s.allAborted.requestClose_frame .abort
  obtain ⟨hdirty, holder, hnewest⟩ := State.directStby_gens hm ht hg
  have hentries : s.directStby.entries = [] := by
    rw [rest]
    simp [State.atRest, State.allAborted, State.abortAll_entries]
  have htotals : s.directStby.tally.totals = s.tally.totals.set Disposition.aborted.code
      (stepUpBy s.entries.length s.tally.totals[Disposition.aborted.code]) := by
    rw [rest, ← dep.totals, ← frame.totals]
    rfl
  have hstatus : s.directStby.status = s.allAborted.status := by
    rw [rest]
    exact State.requestClose_status _ _
  refine ⟨hentries, by rw [rest]; rfl, by rw [rest]; rfl, hdirty, holder, hnewest, ?_, fun k hk => ?_, ?_,
    track.path, track.setup, track.cancel, ?_, ?_, ?_, ?_, track.flags, fun f hf => ?_, fun hl => ?_⟩
  · rw [htotals]
    exact Vector.getElem_set_self _
  · rw [htotals]
    exact Vector.getElem_set_ne _ _ fun h => hk (Fin.ext h.symm)
  · rw [rest]
    exact frame.seq.trans dep.seq
  · rw [rest]
    exact frame.opened.trans dep.opened
  · rw [rest]
    exact (State.requestClose_lastUninspected _ _).trans dep.uncounted
  · rw [hstatus, dep.reasons.1]
  · rw [hstatus, dep.reasons.2]
  · by_cases hr : f = .recordDrop
    · exact .inr hr
    · refine .inl ?_
      rw [← s.allAborted_flagSet hr]
      rwa [State.flagSet, hstatus] at hf
  · obtain ⟨htally, htrays⟩ := dep.unlimited hl
    rw [rest]
    exact State.allAborted_close htally htrays dep.seq

end Sys2Proof.Machine
end

section
/-! PROOF. O50: entries that come of age leave as LOST, and the exit of the last entry ends a drain (R83, R87, R89, R90,
R126, R132, R138). -/

namespace Sys2Proof.Machine

/-! ### The entries that come of age (R89) -/

theorem State.loseAged_departs (s : State) (p : Nat) (h : p ∈ s.pieces) :
    Departures Disposition.lost.code 1 s (s.loseAged p) := by
  obtain ⟨e, he⟩ := State.entry?_of_mem_pieces h
  exact { State.retire_departs he .lost with }

/-- R89: the pieces that have come of age, oldest first. -/
def State.agedPieces (s : State) : List Nat :=
  (s.entries.filter fun e => decide (s.trays.inForce.ageLimit ≤ e.age)).map Entry.piece

theorem State.length_agedPieces (s : State) :
    s.agedPieces.length = s.entries.countP fun e => decide (s.trays.inForce.ageLimit ≤ e.age) := by
  rw [State.agedPieces, List.length_map, List.countP_eq_length_filter]

/-- With no number twice, an entry's number tells whether it has come of age. -/
theorem State.mem_agedPieces_iff {s : State} (hd : s.pieces.Nodup) {e : Entry} (he : e ∈ s.entries) :
    e.piece ∈ s.agedPieces ↔ s.trays.inForce.ageLimit ≤ e.age := by
  constructor
  · intro h
    obtain ⟨q, hq, hp⟩ := List.mem_map.mp h
    obtain ⟨hqs, hage⟩ := List.mem_filter.mp hq
    rw [← List.inj_on_of_nodup_map hd hqs he hp]
    exact of_decide_eq_true hage
  · exact fun h => List.mem_map_of_mem (List.mem_filter.mpr ⟨he, decide_eq_true h⟩)

/-- R89: every entry that has come of age leaves as LOST, and the others stand. -/
theorem State.retireAged_departs {s : State} (hd : s.pieces.Nodup) :
    Departures Disposition.lost.code s.agedPieces.length s s.retireAged ∧
      s.retireAged.entries = s.entries.filter fun e => !decide (s.trays.inForce.ageLimit ≤ e.age) := by
  obtain ⟨dep, ent⟩ := foldl_departures State.loseAged_departs (fun s p => s.retire_entries .lost p) s.agedPieces s
    (hd.sublist (List.filter_sublist.map _)) fun p hp => (List.filter_sublist.map _).subset hp
  refine ⟨dep, ent.trans (List.filter_congr fun e he => ?_)⟩
  rw [← decide_not]
  exact decide_eq_decide.mpr (not_congr (State.mem_agedPieces_iff hd he))

/-- R89, R165: PIECE_LOST is set when an entry comes of age, and only then. -/
theorem State.retireAged_pieceLost (s : State) :
    s.retireAged.flagSet .pieceLost = true ↔ s.flagSet .pieceLost = true ∨ 0 < s.agedPieces.length := by
  have key : ∀ (l : List Nat) (t : State), (l.foldl State.loseAged t).flagSet .pieceLost = true ↔
      t.flagSet .pieceLost = true ∨ 0 < l.length := by
    intro l
    induction l with
    | nil => simp
    | cons p ps ih =>
      intro t
      rw [List.foldl_cons, ih]
      simp [State.loseAged, State.flagSet_raise]
  exact key _ s

/-! ### The drain end after an exit word (R83) -/

theorem State.drainEndIfDue_frame (s : State) : CloseFrame s s.drainEndIfDue := by
  unfold State.drainEndIfDue
  split
  · have frame := s.requestClose_frame .drain
    exact ⟨by simp [State.drainEnd, State.enterStandby, frame.totals],
      by simp [State.drainEnd, State.enterStandby, frame.opened],
      by simp [State.drainEnd, State.enterStandby, frame.seq]⟩
  · exact .refl s

@[simp] theorem State.drainEndIfDue_entries (s : State) : s.drainEndIfDue.entries = s.entries := by
  unfold State.drainEndIfDue
  split
  · simp [State.drainEnd, State.enterStandby]
  · rfl

theorem State.drainEndIfDue_status (s : State) : s.drainEndIfDue.status = s.status := by
  unfold State.drainEndIfDue
  split
  · simp [State.drainEnd, State.enterStandby]
  · rfl

theorem State.drainEndIfDue_mode (s : State) :
    s.drainEndIfDue.mode = if s.mode = .drain ∧ s.entries = [] then .standby else s.mode := by
  unfold State.drainEndIfDue
  split
  · exact State.enterStandby_mode _
  · rfl

/-- R133: after the limit check no tray record waits where the other bank is FREE. -/
theorem State.limitAsked_noTrayQueued {s : State} (h : s.tally.other = .free → s.NoTrayQueued) :
    s.limitAsked.tally.other = .free → s.limitAsked.NoTrayQueued := by
  unfold State.limitAsked State.closeAsked
  split
  · split
    · exact fun hf => nomatch hf
    · rename_i hne
      exact fun hf => absurd hf hne
  · exact h

/-! ### An exit word that is taken (R87) -/

section Exit

variable {s : State} {older younger : List Entry} {e : Entry}

/-- R87: the retirement an exit word brings about, at its entry's place. -/
theorem State.exit_retire (h : s.entries = older ++ e :: younger) (hd : s.pieces.Nodup)
    (ht : s.tally.other = .free → s.NoTrayQueued) (st : Nat) (jam : Bool) :
    (s.modifyEntry e.piece (Entry.takeExit st jam)).retire .exit e.piece =
      (s.departed ((e.takeExit st jam).retired .exit) ((e.takeExit st jam).dispositionFor .exit)
        (older ++ younger)).limitAsked := by
  have place := State.placedAt_of_nodup h hd
  have hp : (e.takeExit st jam).piece = e.piece := e.takeExit_piece st jam
  rw [place.modifyEntry, ← hp]
  exact State.retire_eq_departed (s := { s with entries := older ++ e.takeExit st jam :: younger })
    (place.changed hp rfl) ht .exit

/-- R83: the exit of the sole entry ends a drain. -/
theorem State.exit_sole (h : s.entries = [e]) (hm : s.mode = .drain) (ht : s.tally.other = .free → s.NoTrayQueued)
    (st : Nat) (jam : Bool) :
    s.exit e.piece st jam = (((s.departed ((e.takeExit st jam).retired .exit) ((e.takeExit st jam).dispositionFor .exit)
      []).limitAsked).closeAsked .drain).atRest := by
  have hd : s.pieces.Nodup := by simp [State.pieces, h]
  have place := State.placedAt_of_nodup (older := []) (younger := []) h hd
  generalize hu : (s.departed ((e.takeExit st jam).retired .exit) ((e.takeExit st jam).dispositionFor .exit)
    []).limitAsked = u
  have retire : (s.modifyEntry e.piece (Entry.takeExit st jam)).retire .exit e.piece = u :=
    (State.exit_retire (older := []) (younger := []) h hd ht st jam).trans hu
  have entries : u.entries = [] := by rw [← hu, State.limitAsked_entries_eq, State.departed_entries_eq]
  have mode : u.mode = .drain := by rw [← hu, State.limitAsked_mode, State.departed_mode, hm]
  have noTray : u.tally.other = .free → u.NoTrayQueued := hu ▸ State.limitAsked_noTrayQueued fun hf =>
    State.departed_noTrayQueued (ht (State.departed_other s _ _ _ ▸ hf)) _ _ _
  have aged : (u.ageOlder (s.olderThan e.piece)).retireAged = u := by
    have : u.ageOlder (s.olderThan e.piece) = u := by simp [place.olderThan, State.ageOlder]
    rw [this, State.retireAged_eq_self (by simp [entries])]
  unfold State.exit
  simp only [retire, aged]
  exact State.drainEndIfDue_eq_atRest mode entries noTray

/-- R91: no exit gives the disposition LOST. -/
theorem Entry.dispositionFor_exit_ne_lost (e : Entry) : (e.dispositionFor .exit).code ≠ Disposition.lost.code := by
  unfold Entry.dispositionFor Entry.dispatchedDisposition
  simp only []
  repeat' split
  all_goals decide

/-- R87, R90: what the retirement of an exit word does. -/
theorem State.exit_departs (h : s.entries = older ++ e :: younger) (hd : s.pieces.Nodup) (st : Nat) (jam : Bool) :
    let u := (s.modifyEntry e.piece (Entry.takeExit st jam)).retire .exit e.piece
    Departures ((e.takeExit st jam).dispositionFor .exit).code 1 s u ∧ u.entries = older ++ younger := by
  have place := State.placedAt_of_nodup h hd
  have hp : (e.takeExit st jam).piece = e.piece := e.takeExit_piece st jam
  have place' : State.PlacedAt { s with entries := older ++ e.takeExit st jam :: younger } older (e.takeExit st jam)
    younger := place.changed hp rfl
  intro u
  have hu : u = State.retire .exit (e.takeExit st jam).piece
      { s with entries := older ++ e.takeExit st jam :: younger } := by rw [hp, ← place.modifyEntry]
  rw [hu]
  exact ⟨{ State.retire_departs place'.entry? .exit with }, (State.retire_entries _ _ _).trans place'.removed⟩

/-- R87, R89, R90: an exit word retires its entry and the older entries grow older; then come those that have come of age
and the drain end. -/
theorem State.exit_parts (h : s.entries = older ++ e :: younger) (hd : s.pieces.Nodup) (st : Nat) (jam : Bool) :
    ∃ v : State, s.exit e.piece st jam = v.retireAged.drainEndIfDue ∧
      Departures ((e.takeExit st jam).dispositionFor .exit).code 1 s v ∧
      v.entries = older.map (fun q => { q with age := q.age + 1 }) ++ younger ∧ v.pieces.Nodup ∧
      v.flagSet .pieceLost = s.flagSet .pieceLost := by
  have place := State.placedAt_of_nodup h hd
  obtain ⟨dep, left⟩ := State.exit_departs h hd st jam
  have flag := State.retire_flagSet (s.modifyEntry e.piece (Entry.takeExit st jam)) .exit e.piece
    (f := .pieceLost) (by decide)
  have grown := State.ageOlder_at left (State.younger_ne_older h hd)
  refine ⟨_, rfl, { dep with }, ?_, ?_, flag⟩
  · rw [place.olderThan, grown]
  · rw [State.ageOlder_pieces, State.pieces, left]
    refine hd.sublist ?_
    rw [State.pieces, h]
    exact ((List.Sublist.refl _).append (List.sublist_cons_self _ _)).map _

/-- R83, R87, R89, R90: what an exit word brings about with no tray limit. -/
theorem State.exit_unlimited (h : s.entries = older ++ e :: younger) (hd : s.pieces.Nodup)
    (hl : s.trays.inForce.pieceLimit = 0) (st : Nat) (jam : Bool) :
    let d := (e.takeExit st jam).dispositionFor .exit
    let aged := older.map (fun q => { q with age := q.age + 1 }) ++ younger
    let old : Entry → Bool := fun q => decide (s.trays.inForce.ageLimit ≤ q.age)
    let n := aged.countP old
    let t := s.exit e.piece st jam
    t.entries = aged.filter (fun q => !old q) ∧
      t.tally.totals = ((s.tally.counted d.code).totals).set 9 (stepUpBy n s.tally.totals[9]) ∧
      t.report.seq = s.report.seq + 1 + BitVec.ofNat 32 n ∧ t.tally.opened = s.tally.opened ∧
      (t.flagSet .pieceLost = true ↔ s.flagSet .pieceLost = true ∨ 0 < n) ∧
      t.mode = (if s.mode = .drain ∧ t.entries = [] then .standby else s.mode) ∧
      (s.mode = .run ∨ t.entries ≠ [] → t.tally.counts =
        ((s.tally.counted d.code).counts).set 9 (stepUpBy n s.tally.counts[9]) ∧ t.trays = s.trays) := by
  intro d aged old n t
  obtain ⟨v, ht : t = _, dep, grown, distinct, flag⟩ := State.exit_parts h hd st jam
  obtain ⟨tally, trays⟩ := dep.unlimited hl
  obtain ⟨counts9, totals9⟩ := s.tally.countedBy_ne (e.takeExit st jam).dispositionFor_exit_ne_lost 1
  rw [← tally] at counts9 totals9
  have count : v.agedPieces.length = n := by rw [State.length_agedPieces, trays, grown]
  obtain ⟨gone, stay⟩ := State.retireAged_departs distinct
  have lost := v.retireAged_pieceLost
  rw [count] at gone lost
  rw [trays, grown] at stay
  generalize v.retireAged = w at gone stay lost ht
  have frame := w.drainEndIfDue_frame
  have entries : t.entries = w.entries := by rw [ht, State.drainEndIfDue_entries]
  have mode : w.mode = s.mode := gone.mode.trans dep.mode
  refine ⟨entries.trans stay, ?_, ?_, ?_, ?_, ?_, fun hrun => ?_⟩
  · rw [ht, frame.totals, gone.totals, totals9, tally]
    rfl
  · rw [ht, frame.seq, gone.seq, dep.seq]
    rfl
  · rw [ht, frame.opened, gone.opened, dep.opened]
  · rw [ht, State.flagSet, State.drainEndIfDue_status, ← State.flagSet, lost, flag]
  · rw [entries, ht, State.drainEndIfDue_mode, mode]
  · have stays : t = w := ht.trans <| State.drainEndIfDue_eq_self fun hw => by
      rw [← entries]
      exact hrun.resolve_left fun hr => by simp [← mode, hw] at hr
    obtain ⟨wtally, wtrays⟩ := gone.unlimited (trays ▸ hl)
    refine ⟨?_, by rw [stays, wtrays, trays]⟩
    rw [stays, wtally, TallyUnit.countedBy, counts9, tally]
    rfl

end Exit

/-- Settles O50: the exit of a sole entry, then aging with no tray limit. -/
theorem agedEntriesLeaveAndDrainsEnd : Obligations.AgedEntriesLeaveAndDrainsEnd := by
  intro s m x j r bs older younger e hm hx h hg hb hj he hl hd ht e' d
  have hq : (s.queued r []).entry? (half bs 0) = some e :=
    he ▸ (State.placedAt_of_nodup (s := s.queued r []) hl hd).entry?
  have taken : s.mode ≠ .standby → exec (.exitWrite r) s =
      .next ((s.queued r []).exit e.piece (byteAt bs 2).toNat ((byteAt bs 3).getLsbD 0)) := fun hs => by
    rw [h.exec_exit hm hx, if_neg hs, State.exitWord_taken h.addr hg hb hj hq, ← he, bitOf_zero]
  refine ⟨fun hdr ho hy => ?_, fun hs hlim => ⟨_, taken hs, ?_⟩⟩
  · subst ho hy
    rw [taken (by simp [hdr])]
    exact congrArg _ (State.exit_sole (s := s.queued r []) hl hdr ht _ _)
  · exact State.exit_unlimited (s := s.queued r []) hl hd hlim _ _

end Sys2Proof.Machine
end

section
/-! SUPPORT. Exit words and print status words are taken without a look at the path unit (R86, R118). -/

namespace Sys2Proof.Machine

section WithPath

variable (s : State) (q : PathUnit)

@[simp] theorem State.ageOlder_withPath (l : List Nat) : (s.withPath q).ageOlder l = (s.ageOlder l).withPath q := rfl

@[simp] theorem State.retireAged_withPath : (s.withPath q).retireAged = s.retireAged.withPath q :=
  s.foldl_withPath q (fun t p => by simp [State.loseAged]) _

@[simp] theorem State.applyStagedIfDirty_withPath :
    (s.withPath q).applyStagedIfDirty = s.applyStagedIfDirty.withPath q := by
  simp only [State.applyStagedIfDirty, ← State.ite_withPath]
  rfl

@[simp] theorem State.enterStandby_withPath : (s.withPath q).enterStandby = s.enterStandby.withPath q :=
  State.applyStagedIfDirty_withPath ({ s with mode := .standby } : State).idleInspection q

@[simp] theorem State.drainEndIfDue_withPath : (s.withPath q).drainEndIfDue = s.drainEndIfDue.withPath q := by
  simp [State.drainEndIfDue, State.drainEnd]

theorem State.exit_withPath (p st : Nat) (jam : Bool) :
    (s.withPath q).exit p st jam = (s.exit p st jam).withPath q := by
  have older : (s.withPath q).olderThan p = s.olderThan p := rfl
  simp [State.exit, older]

/-- R86: one exit word. -/
theorem State.exitWord_withPath (gate : Option Nat) (r : Request) (base j : Nat) :
    State.exitWord gate r base (s.withPath q) j = (State.exitWord gate r base s j).withPath q := by
  simp only [State.exitWord, State.withPath_entry?, State.raise_withPath, State.exit_withPath]
  repeat' split
  all_goals rfl

theorem State.hold_withPath : (s.withPath q).hold = s.hold.withPath q := rfl

theorem State.countMisprint_withPath (st : PrintStatus) :
    (s.withPath q).countMisprint st = (s.countMisprint st).withPath q := by
  cases st
  case misprint =>
    simp only [State.countMisprint, ← State.ite_withPath]
    rfl
  all_goals rfl

theorem State.takeStatus_withPath (p : Nat) (st : PrintStatus) :
    (s.withPath q).takeStatus p st = (s.takeStatus p st).withPath q := by
  simp only [State.takeStatus, State.hold_withPath, State.ite_withPath, State.withPath_entry?]
  split
  · rfl
  · simp [State.countMisprint_withPath]

/-- R118: one print status word. -/
theorem State.statusWord_withPath (printer : Option Nat) (r : Request) (base j : Nat) :
    State.statusWord printer r base (s.withPath q) j = (State.statusWord printer r base s j).withPath q := by
  simp only [State.statusWord, State.raise_withPath, State.takeStatus_withPath]
  repeat' split
  all_goals rfl

theorem State.takeExitWrite_withPath (gate : Option Nat) (base : Nat) (r : Request) :
    (s.withPath q).takeExitWrite gate base r = (s.takeExitWrite gate base r).withPath q := by
  simp only [State.takeExitWrite, State.withPath_mode,
    s.foldl_withPath q fun t j => t.exitWord_withPath q gate r base j, State.ite_withPath]

theorem State.takeStatusWrite_withPath (printer : Option Nat) (base : Nat) (r : Request) :
    (s.withPath q).takeStatusWrite printer base r = (s.takeStatusWrite printer base r).withPath q := by
  simp only [State.takeStatusWrite, State.withPath_mode,
    s.foldl_withPath q fun t j => t.statusWord_withPath q printer r base j, State.ite_withPath]

end WithPath

end Sys2Proof.Machine
end

section
/-! PROOF. O53: requests over several slots, or parts of slots, are taken slot by slot (R86, R93, R94, R111, R112, R118). -/

namespace Sys2Proof.Machine

/-! ### The request for one slot alone -/

/-- What R160 says of the base of a window of 64 slots of 8 or 16 bytes. -/
structure SlotWindow (base size : Nat) : Prop where
  align : base % 1024 = 0
  fits  : base + 64 * size ≤ 4294967296
  size  : size = 8 ∨ size = 16

/-- R160: the four windows that are taken slot by slot. -/
theorem MemoryMap.slotWindows {m : MemoryMap} {straps : BitVec 16} (hr : m.inRange = true)
    (hp : m.placed straps = true) :
    SlotWindow m.dispatch 8 ∧ SlotWindow m.print 16 ∧ SlotWindow m.status 8 ∧ SlotWindow m.exit 8 := by
  have fits := (Bool.and_eq_true_iff.mp hr).2
  have align := (Bool.and_eq_true_iff.mp hp).1
  simp only [MemoryMap.extents, List.all_cons, Bool.and_eq_true, decide_eq_true_eq] at fits align
  obtain ⟨-, -, fd, fp, fs, fe, -⟩ := fits
  obtain ⟨-, -, ad, ap, as, ae, -⟩ := align
  exact ⟨⟨ad, fd, .inl rfl⟩, ⟨ap, fp, .inr rfl⟩, ⟨as, fs, .inl rfl⟩, ⟨ae, fe, .inl rfl⟩⟩

section SlotPart

variable {base size j : Nat} {r : Request}

theorem SlotWindow.reqLo_slotPart (w : SlotWindow base size) (hj : j < 64) (r : Request) :
    reqLo (slotPart size r (base + size * j)) = base + size * j := by
  have hlt : base + size * j < 4294967296 := by
    have := w.fits
    rcases w.size with rfl | rfl <;> omega
  simp [reqLo, slotPart, Nat.mod_eq_of_lt hlt]

theorem SlotWindow.reqHi_slotPart (w : SlotWindow base size) (hj : j < 64) (r : Request) :
    reqHi (slotPart size r (base + size * j)) = base + size * j + size := by
  have hlo := w.reqLo_slotPart hj r
  have hlen : 8 * (slotPart size r (base + size * j)).beats = size := by
    rcases w.size with rfl | rfl <;> rfl
  exact congrArg₂ (· + ·) hlo hlen

theorem SlotWindow.within (w : SlotWindow base size) (hj : j < 64) (r : Request) :
    reqWithin (slotPart size r (base + size * j)) (base, 64 * size) := by
  have hlo := w.reqLo_slotPart hj r
  have hhi := w.reqHi_slotPart hj r
  unfold reqWithin
  rcases w.size with rfl | rfl <;> omega

/-- R168: a slot crosses no page. -/
theorem SlotWindow.not_outside (w : SlotWindow base size) (hj : j < 64) (hs : r.source ≠ 15) :
    reqOutside (slotPart size r (base + size * j)) = false := by
  refine reqOutside_eq_false ?_ hs
  have hlo := w.reqLo_slotPart hj r
  have hhi := w.reqHi_slotPart hj r
  have align := w.align
  simp only [reqCrosses, hlo, hhi, ne_eq, decide_eq_false_iff_not, not_not]
  rcases w.size with rfl | rfl <;> omega

theorem SlotWindow.slotsTouched (w : SlotWindow base size) (hj : j < 64) (r : Request) :
    slotsTouched (slotPart size r (base + size * j)) base size 64 = [j] := by
  refine filter_range_eq_singleton hj fun i _ => ?_
  have hlo := w.reqLo_slotPart hj r
  have hhi := w.reqHi_slotPart hj r
  simp only [reqTouches, hlo, hhi, Bool.and_eq_true, decide_eq_true_eq]
  rcases w.size with rfl | rfl <;> omega

/-- R86, R118: a slot's request enables what the request enables in the slot. -/
theorem SlotWindow.writtenBytes_slotPart (w : SlotWindow base size) (hj : j < 64) (hk : r.kind = .write) :
    writtenBytes (slotPart size r (base + size * j)) (base + size * j) size =
      writtenBytes r (base + size * j) size := by
  refine writtenBytes_congr fun i hi => ?_
  rw [writtenAt, w.reqLo_slotPart hj r, if_neg (by omega), Nat.add_sub_cancel_left]
  simp only [slotPart, hk, List.getElem?_map, List.getElem?_range hi, Option.map_some]
  cases writtenAt r (base + size * j + i) <;> rfl

/-- R94, R112: the part of a slot's plan that a request covers is the request's own plan for the slot. -/
theorem SlotWindow.coveredPlan_planOf (w : SlotWindow base size) (hj : j < 64) {bytes : List Byte}
    (hb : bytes.length ≤ size) :
    coveredPlan r (base + size * j) (planOf (slotPart size r (base + size * j)) (base + size * j) bytes) =
      planOf r (base + size * j) bytes := by
  have hlo := w.reqLo_slotPart hj r
  have hhi := w.reqHi_slotPart hj r
  simp only [coveredPlan, planOf, List.filterMap_filterMap, hlo, hhi]
  refine List.filterMap_congr fun o ho => ?_
  have hlt : o < size := (List.mem_range.mp ho).trans_le hb
  rw [if_pos (by omega)]
  simp

end SlotPart

/-! ### The window a request touches (R171) -/

section Parts

variable {u : SetupUnit} {m : MemoryMap} {r : Request}

theorem partsOf_dispatch (hm : u.map = some m) (hk : r.kind = .read) (ho : reqOutside r = false)
    (hd : reqTouches r m.dispatch 512 = true) (hp : reqTouches r m.print 1024 = false)
    (hl : reqTouches r m.live 256 = false) : partsOf u r = [(m.dispatch, .dispatch)] := by
  simp [partsOf, hm, hk, ho, partIf, hd, hp, hl]

theorem partsOf_print (hm : u.map = some m) (hk : r.kind = .read) (ho : reqOutside r = false)
    (hd : reqTouches r m.dispatch 512 = false) (hp : reqTouches r m.print 1024 = true)
    (hl : reqTouches r m.live 256 = false) : partsOf u r = [(m.print, .print)] := by
  simp [partsOf, hm, hk, ho, partIf, hd, hp, hl]

/-- A request that touches a window lies inside no span that shares no byte with it. -/
theorem not_inside_of_touches {a b : Nat × Nat} (hb : 1 ≤ r.beats) (ht : reqTouches r b.1 b.2 = true)
    (hab : spansMeet a b = false) : reqInside r a.1 a.2 = false := by
  by_contra hin
  have apart := (reqWithin_of_inside (Bool.not_eq_false _ ▸ hin) hb).not_touches hab
  rw [ht] at apart
  cases apart

theorem partsOf_status (hm : u.map = some m) (hplaced : m.placed u.straps = true) (hk : r.kind = .write)
    (hb : 1 ≤ r.beats) (ho : reqOutside r = false) (h0 : reqTouches r (setupBase u.straps) setupSize = false)
    (hs : reqTouches r m.status 512 = true) (he : reqTouches r m.exit 512 = false) :
    partsOf u r = [(m.status, .status)] := by
  have hface := not_inside_of_touches hb hs (MemoryMap.apart hplaced (i := 1) (j := 5) (by decide) (by decide))
  have hback := not_inside_of_touches hb hs (MemoryMap.apart hplaced (i := 2) (j := 5) (by decide) (by decide))
  simp only [MemoryMap.spans, MemoryMap.extents, List.map_cons, List.map_nil, List.getElem_cons_zero,
    List.getElem_cons_succ] at hface hback
  simp [partsOf, hm, hk, ho, partIf, h0, hface, hback, hs, he]

theorem partsOf_exit (hm : u.map = some m) (hplaced : m.placed u.straps = true) (hk : r.kind = .write)
    (hb : 1 ≤ r.beats) (ho : reqOutside r = false) (h0 : reqTouches r (setupBase u.straps) setupSize = false)
    (hs : reqTouches r m.status 512 = false) (he : reqTouches r m.exit 512 = true) :
    partsOf u r = [(m.exit, .exit)] := by
  have hface := not_inside_of_touches hb he (MemoryMap.apart hplaced (i := 1) (j := 6) (by decide) (by decide))
  have hback := not_inside_of_touches hb he (MemoryMap.apart hplaced (i := 2) (j := 6) (by decide) (by decide))
  simp only [MemoryMap.spans, MemoryMap.extents, List.map_cons, List.map_nil, List.getElem_cons_zero,
    List.getElem_cons_succ] at hface hback
  simp [partsOf, hm, hk, ho, partIf, h0, hface, hback, hs, he]

end Parts

/-! ### A request that falls into one window -/

section OneWindow

variable {s : State} {r : Request} {base : Nat}

theorem State.queued_of_setup {s t : State} (h : t.setup = s.setup) (r : Request) (plan : FillPlan) :
    t.enqueue (s.laneOf r) { request := r, plan := plan } = t.queued r plan := by
  rw [State.queued, State.laneOf_of_map (s := s) (t := t) (by rw [h])]

/-- R171: an accepted read that falls into one part alone is queued with the plan of that part. -/
theorem State.present_readPart {p : Nat × Part} (hr : s.AcceptsAtOnce r) (hk : r.kind = .read)
    (hp : partsOf s.setup r = [p]) :
    let q := State.takePart State.settleHeld s.setup.sources r (s, []) p
    s.present r = q.1.enqueue (s.laneOf r) { request := r, plan := q.2 } := by
  rw [State.present_accepted hr, State.arrive, hk]
  simp only [State.offer, hp, orderParts, insertPart, List.foldl_cons, List.foldl_nil]

theorem State.exec_dispatchRead (hr : s.AcceptsAtOnce r) (hk : r.kind = .read)
    (hp : partsOf s.setup r = [(base, .dispatch)]) :
    let q := State.takeDispatchRead (gateId s.setup.sources) base r (s, [])
    exec (.dispatchRead r) s = .next (q.1.queued r q.2) := by
  refine congrArg Host.Outcome.next ((State.present_readPart hr hk hp).trans ?_)
  exact State.queued_of_setup (State.takeDispatchRead_track _ base r (s, [])).setup r _

theorem State.exec_printRead (hr : s.AcceptsAtOnce r) (hk : r.kind = .read)
    (hp : partsOf s.setup r = [(base, .print)]) :
    let q := State.takePrintRead (printerId s.setup.sources) base r (s, [])
    exec (.printRead r) s = .next (q.1.queued r q.2) := by
  refine congrArg Host.Outcome.next ((State.present_readPart hr hk hp).trans ?_)
  exact State.queued_of_setup (State.takePrintRead_track _ base r (s, [])).setup r _

/-- What is done without a look at the path unit, and leaves path and setup units as they were, may be done before a request
is queued. -/
theorem State.queued_comm {f : State → State} (hf : ∀ q, f (s.withPath q) = (f s).withPath q)
    (hpath : (f s).path = s.path) (hsetup : (f s).setup = s.setup) (r : Request) (plan : FillPlan) :
    f (s.queued r plan) = (f s).queued r plan := by
  have apart : s.queued r plan = s.withPath (s.queued r plan).path := rfl
  rw [apart, hf]
  simp only [State.queued, State.enqueue, State.setQueue, State.withPath, hpath,
    State.laneOf_of_map (s := s) (t := f s) (by rw [hsetup])]

theorem State.exec_printStatusWrite (hr : s.AcceptsAtOnce r) (hk : r.kind = .write)
    (hp : partsOf s.setup r = [(base, .status)]) :
    exec (.printStatusWrite r) s =
      .next ((s.takeStatusWrite (printerId s.setup.sources) base r).queued r []) := by
  have frame := s.takeStatusWrite_status (printerId s.setup.sources) base r
  refine congrArg Host.Outcome.next ((State.present_part hr hk hp).trans ?_)
  exact State.queued_comm (fun q => s.takeStatusWrite_withPath q _ base r) frame.path frame.setup r []

theorem State.exec_exitWrite (hr : s.AcceptsAtOnce r) (hk : r.kind = .write)
    (hp : partsOf s.setup r = [(base, .exit)]) :
    exec (.exitWrite r) s = .next ((s.takeExitWrite (gateId s.setup.sources) base r).queued r []) := by
  have frame := s.takeExitWrite_track (gateId s.setup.sources) base r
  refine congrArg Host.Outcome.next ((State.present_part hr hk hp).trans ?_)
  exact State.queued_comm (fun q => s.takeExitWrite_withPath q _ base r) frame.path frame.setup r []

end OneWindow

/-! ### One slot taken by its own command -/

/-- The path and setup units, and with them windows, source ids and room, are as they were. -/
structure UnitsFrame (s t : State) : Prop where
  setup : t.setup = s.setup
  path  : t.path = s.path

theorem UnitsFrame.refl (s : State) : UnitsFrame s s := ⟨rfl, rfl⟩

theorem UnitsFrame.trans {s t u : State} (h : UnitsFrame s t) (k : UnitsFrame t u) : UnitsFrame s u :=
  ⟨k.setup.trans h.setup, k.path.trans h.path⟩

theorem TrackFrame.units {s t : State} (h : TrackFrame s t) : UnitsFrame s t := ⟨h.setup, h.path⟩

theorem StatusFrame.units {s t : State} (h : StatusFrame s t) : UnitsFrame s t := ⟨h.setup, h.path⟩

/-- R170: the request for one slot has the room that the request has. -/
theorem State.AcceptsAtOnce.slotPart {s t : State} {r : Request} (h : s.AcceptsAtOnce r) (f : UnitsFrame s t)
    (size a : Nat) : t.AcceptsAtOnce (slotPart size r a) := by
  obtain ⟨held, room⟩ := h
  have lane : t.laneOf (Machine.slotPart size r a) = s.laneOf r := State.laneOf_of_map (s := s) (by rw [f.setup]) r
  refine ⟨f.path ▸ held, ?_⟩
  rw [lane, State.hasRoom, f.path]
  exact room

/-- A slot taken, by what its own command does. -/
theorem State.slotTaken_eq {c : Request → Instr} {size a : Nat} {r : Request} {p w : State × FillPlan}
    (hc : exec (c (slotPart size r a)) p.1 = .next (w.1.queued (slotPart size r a) w.2)) (hw : w.1.path = p.1.path) :
    State.slotTaken c size r p a = (w.1, p.2 ++ coveredPlan r a w.2) := by
  have young : (w.1.queued (slotPart size r a) w.2).youngestPlan r = w.2 := by
    have lane : (w.1.queued (slotPart size r a) w.2).laneOf r = w.1.laneOf (slotPart size r a) := rfl
    rw [State.youngestPlan, lane, State.queued, State.enqueue, State.queue_setQueue_same, List.getLast?_concat]
  simp only [State.slotTaken, hc, young, ← hw]
  rfl

/-- Two folds whose steps agree wherever a property holds that they keep. -/
theorem foldl_congr_of_kept {α σ : Type} {f g : σ → α → σ} {I : σ → Prop} {l : List α}
    (hfg : ∀ a, I a → ∀ x ∈ l, f a x = g a x) (hg : ∀ a, I a → ∀ x ∈ l, I (g a x)) {a : σ} (ha : I a) :
    l.foldl f a = l.foldl g a := by
  induction l generalizing a with
  | nil => rfl
  | cons x xs ih =>
    rw [List.foldl_cons, List.foldl_cons, hfg a ha x List.mem_cons_self]
    exact ih (fun b hb y hy => hfg b hb y (List.mem_cons_of_mem _ hy))
      (fun b hb y hy => hg b hb y (List.mem_cons_of_mem _ hy)) (hg a ha x List.mem_cons_self)

theorem lt_of_mem_slotsTouched {r : Request} {base size j : Nat} (h : j ∈ slotsTouched r base size 64) : j < 64 :=
  List.mem_range.mp (List.mem_of_mem_filter h)

/-! ### Reads -/

theorem DispatchAnswer.length_bytes (a : DispatchAnswer) : a.bytes.length = 8 := rfl

theorem PrintAnswer.length_bytes (a : PrintAnswer) : a.bytes.length = 16 := rfl

section Reads

variable {s : State} {m : MemoryMap} {r : Request}

/-- R93, R94: a dispatch slot, taken by its own read. -/
theorem SlotWindow.dispatchSlot {base j : Nat} (w : SlotWindow base 8) (hj : j < 64) (gate : Option Nat)
    (p : State × FillPlan) :
    let q := State.dispatchSlot gate (slotPart 8 r (base + 8 * j)) base (p.1, []) j
    (q.1, p.2 ++ coveredPlan r (base + 8 * j) q.2) = State.dispatchSlot gate r base p j := by
  have source : (slotPart 8 r (base + 8 * j)).source = r.source := rfl
  simp only [State.dispatchSlot, source]
  split
  · simp [coveredPlan]
  · split
    · simp [coveredPlan]
    · simp only [List.nil_append, w.coveredPlan_planOf hj (DispatchAnswer.length_bytes _).le]

/-- R111, R112: a print slot, taken by its own read. -/
theorem SlotWindow.printSlot {base j : Nat} (w : SlotWindow base 16) (hj : j < 64) (printer : Option Nat)
    (p : State × FillPlan) :
    let q := State.printSlot printer (slotPart 16 r (base + 16 * j)) base (p.1, []) j
    (q.1, p.2 ++ coveredPlan r (base + 16 * j) q.2) = State.printSlot printer r base p j := by
  have source : (slotPart 16 r (base + 16 * j)).source = r.source := rfl
  simp only [State.printSlot, source]
  split
  · simp [coveredPlan]
  · split
    · simp [coveredPlan]
    · simp only [List.nil_append, w.coveredPlan_planOf hj (PrintAnswer.length_bytes _).le]

/-- R93: a read's part in the dispatch window is its slots, one after another. -/
theorem State.slotsTaken_dispatchRead (hm : s.setup.map = some m) (hr : m.inRange = true)
    (hp : m.placed s.setup.straps = true) (ha : s.AcceptsAtOnce r) (hs : r.source ≠ 15) (hk : r.kind = .read) :
    s.slotsTaken .dispatchRead 8 r (touchedSlots r m.dispatch 8 64) =
      State.takeDispatchRead (gateId s.setup.sources) m.dispatch r (s, []) := by
  have w := (MemoryMap.slotWindows hr hp).1
  rw [State.slotsTaken, touchedSlots_eq_slotsTouched, List.foldl_map, State.takeDispatchRead]
  refine foldl_congr_of_kept (I := fun p => UnitsFrame s p.1) (fun p f j hj => ?_)
    (fun p f j _ => f.trans (State.dispatchSlot_track _ r _ p j).units) (.refl s)
  have hj := lt_of_mem_slotsTouched hj
  have within := w.within hj r
  have print := within.not_touches (MemoryMap.apart hp (i := 3) (j := 4) (by decide) (by decide))
  have live := within.not_touches (MemoryMap.apart hp (i := 3) (j := 7) (by decide) (by decide))
  have parts : partsOf p.1.setup (slotPart 8 r (m.dispatch + 8 * j)) = [(m.dispatch, .dispatch)] :=
    partsOf_dispatch (f.setup ▸ hm) hk (w.not_outside hj hs) within.touches print live
  have exec := State.exec_dispatchRead (ha.slotPart f 8 _) hk parts
  rw [State.slotTaken_eq exec (State.takeDispatchRead_track _ _ _ (p.1, [])).path, f.setup, State.takeDispatchRead,
    w.slotsTouched hj]
  exact w.dispatchSlot hj _ p

/-- R111: a read's part in the print window is its slots, one after another. -/
theorem State.slotsTaken_printRead (hm : s.setup.map = some m) (hr : m.inRange = true)
    (hp : m.placed s.setup.straps = true) (ha : s.AcceptsAtOnce r) (hs : r.source ≠ 15) (hk : r.kind = .read) :
    s.slotsTaken .printRead 16 r (touchedSlots r m.print 16 64) =
      State.takePrintRead (printerId s.setup.sources) m.print r (s, []) := by
  have w := (MemoryMap.slotWindows hr hp).2.1
  rw [State.slotsTaken, touchedSlots_eq_slotsTouched, List.foldl_map, State.takePrintRead]
  refine foldl_congr_of_kept (I := fun p => UnitsFrame s p.1) (fun p f j hj => ?_)
    (fun p f j _ => f.trans (State.printSlot_track _ r _ p j).units) (.refl s)
  have hj := lt_of_mem_slotsTouched hj
  have within := w.within hj r
  have dispatch := within.not_touches (spansMeet_comm _ _ ▸ MemoryMap.apart hp (i := 3) (j := 4) (by decide) (by decide))
  have live := within.not_touches (MemoryMap.apart hp (i := 4) (j := 7) (by decide) (by decide))
  have parts : partsOf p.1.setup (slotPart 16 r (m.print + 16 * j)) = [(m.print, .print)] :=
    partsOf_print (f.setup ▸ hm) hk (w.not_outside hj hs) dispatch within.touches live
  have exec := State.exec_printRead (ha.slotPart f 16 _) hk parts
  rw [State.slotTaken_eq exec (State.takePrintRead_track _ _ _ (p.1, [])).path, f.setup, State.takePrintRead,
    w.slotsTouched hj]
  exact w.printSlot hj _ p

end Reads

/-! ### Print status words -/

section Writes

variable {s : State} {m : MemoryMap} {r : Request}

theorem State.statusWord_mode (printer : Option Nat) (r : Request) (base : Nat) (s : State) (j : Nat) :
    (State.statusWord printer r base s j).mode = s.mode := by
  unfold State.statusWord
  split
  · rfl
  · split
    · rfl
    · simp only []
      split
      · rfl
      · split
        · rfl
        · exact (s.takeStatus_answer _ _).mode

/-- R118: one slot's word, taken by its own write: the mode is looked at, then the word. -/
theorem SlotWindow.takeStatusWrite {base j : Nat} (w : SlotWindow base 8) (hj : j < 64) (hk : r.kind = .write)
    (printer : Option Nat) (s : State) :
    s.takeStatusWrite printer base (slotPart 8 r (base + 8 * j)) =
      if s.mode = .standby then s else State.statusWord printer r base s j := by
  have source : (slotPart 8 r (base + 8 * j)).source = r.source := rfl
  rw [State.takeStatusWrite, w.slotsTouched hj, List.foldl_cons, List.foldl_nil]
  simp only [State.statusWord, source, w.writtenBytes_slotPart hj hk]

/-- R86: one slot's word, taken by its own write: the mode is looked at, then the word. -/
theorem SlotWindow.takeExitWrite {base j : Nat} (w : SlotWindow base 8) (hj : j < 64) (hk : r.kind = .write)
    (gate : Option Nat) (s : State) :
    s.takeExitWrite gate base (slotPart 8 r (base + 8 * j)) =
      if s.mode = .standby then s else State.exitWord gate r base s j := by
  have source : (slotPart 8 r (base + 8 * j)).source = r.source := rfl
  rw [State.takeExitWrite, w.slotsTouched hj, List.foldl_cons, List.foldl_nil]
  simp only [State.exitWord, source, w.writtenBytes_slotPart hj hk]

/-- R86, R118: a word is taken in RUN and DRAIN alone. -/
def State.wordTaken (word : State → Nat → State) (s : State) (j : Nat) : State :=
  if s.mode = .standby then s else word s j

theorem State.foldl_wordTaken_standby (word : State → Nat → State) (l : List Nat) {s : State} (h : s.mode = .standby) :
    l.foldl (State.wordTaken word) s = s := by
  induction l with
  | nil => rfl
  | cons j js ih => rwa [List.foldl_cons, State.wordTaken, if_pos h]

/-- A write's slots, taken one after another by commands that each take their slot's word. -/
theorem State.slotsTaken_words {c : Request → Instr} {word : State → Nat → State} {base : Nat}
    (slot : ∀ t j, UnitsFrame s t → j < 64 →
      State.slotTaken c 8 r (t, []) (base + 8 * j) = (State.wordTaken word t j, []))
    (frame : ∀ t j, UnitsFrame t (word t j)) {l : List Nat} (hl : ∀ j ∈ l, j < 64) :
    s.slotsTaken c 8 r (l.map fun j => base + 8 * j) = (l.foldl (State.wordTaken word) s, []) := by
  have key : ∀ (l : List Nat) (t : State), (∀ j ∈ l, j < 64) → UnitsFrame s t →
      l.foldl (fun p j => State.slotTaken c 8 r p (base + 8 * j)) (t, []) = (l.foldl (State.wordTaken word) t, []) := by
    intro l
    induction l with
    | nil => exact fun _ _ _ => rfl
    | cons j js ih =>
      intro t hl f
      have taken : UnitsFrame t (State.wordTaken word t j) := by
        unfold State.wordTaken
        split
        · exact .refl t
        · exact frame t j
      rw [List.foldl_cons, List.foldl_cons, slot t j f (hl j List.mem_cons_self)]
      exact ih _ (fun i hi => hl i (List.mem_cons_of_mem _ hi)) (f.trans taken)
  rw [State.slotsTaken, List.foldl_map]
  exact key l s hl (.refl s)

/-- R118: a slot of the print status window, taken by its own command. -/
theorem State.slotTaken_printStatusWrite (hm : s.setup.map = some m) (hr : m.inRange = true)
    (hp : m.placed s.setup.straps = true) (ha : s.AcceptsAtOnce r) (hs : r.source ≠ 15) (hk : r.kind = .write)
    (t : State) (j : Nat) (f : UnitsFrame s t) (hj : j < 64) :
    State.slotTaken .printStatusWrite 8 r (t, []) (m.status + 8 * j) =
      (State.wordTaken (State.statusWord (printerId s.setup.sources) r m.status) t j, []) := by
  have w := (MemoryMap.slotWindows hr hp).2.2.1
  have within := w.within hj r
  have setup := within.not_touches (spansMeet_comm _ _ ▸ MemoryMap.apart hp (i := 0) (j := 5) (by decide) (by decide))
  have exit := within.not_touches (MemoryMap.apart hp (i := 5) (j := 6) (by decide) (by decide))
  have parts : partsOf t.setup (slotPart 8 r (m.status + 8 * j)) = [(m.status, .status)] := by
    rw [f.setup]
    exact partsOf_status hm hp hk (Nat.le_refl 1) (w.not_outside hj hs) setup within.touches exit
  have exec := State.exec_printStatusWrite (ha.slotPart f 8 _) hk parts
  rw [State.slotTaken_eq (w := (t.takeStatusWrite _ _ _, [])) exec (State.takeStatusWrite_status _ _ _ t).path,
    f.setup, w.takeStatusWrite hj hk]
  rfl

/-- R86: a slot of the exit window, taken by its own command. -/
theorem State.slotTaken_exitWrite (hm : s.setup.map = some m) (hr : m.inRange = true)
    (hp : m.placed s.setup.straps = true) (ha : s.AcceptsAtOnce r) (hs : r.source ≠ 15) (hk : r.kind = .write)
    (t : State) (j : Nat) (f : UnitsFrame s t) (hj : j < 64) :
    State.slotTaken .exitWrite 8 r (t, []) (m.exit + 8 * j) =
      (State.wordTaken (State.exitWord (gateId s.setup.sources) r m.exit) t j, []) := by
  have w := (MemoryMap.slotWindows hr hp).2.2.2
  have within := w.within hj r
  have setup := within.not_touches (spansMeet_comm _ _ ▸ MemoryMap.apart hp (i := 0) (j := 6) (by decide) (by decide))
  have status := within.not_touches (spansMeet_comm _ _ ▸ MemoryMap.apart hp (i := 5) (j := 6) (by decide) (by decide))
  have parts : partsOf t.setup (slotPart 8 r (m.exit + 8 * j)) = [(m.exit, .exit)] := by
    rw [f.setup]
    exact partsOf_exit hm hp hk (Nat.le_refl 1) (w.not_outside hj hs) setup status within.touches
  have exec := State.exec_exitWrite (ha.slotPart f 8 _) hk parts
  rw [State.slotTaken_eq (w := (t.takeExitWrite _ _ _, [])) exec (State.takeExitWrite_track _ _ _ t).path,
    f.setup, w.takeExitWrite hj hk]
  rfl

/-- R86: the first slots of the exit window that a write touches, one after another. -/
theorem State.slotsTaken_exitWrite (hm : s.setup.map = some m) (hr : m.inRange = true)
    (hp : m.placed s.setup.straps = true) (ha : s.AcceptsAtOnce r) (hs : r.source ≠ 15) (hk : r.kind = .write) (k : Nat) :
    s.slotsTaken .exitWrite 8 r ((touchedSlots r m.exit 8 64).take k) =
      (((slotsTouched r m.exit 8 64).take k).foldl
        (State.wordTaken (State.exitWord (gateId s.setup.sources) r m.exit)) s, []) := by
  rw [touchedSlots_eq_slotsTouched, ← List.map_take]
  exact State.slotsTaken_words (State.slotTaken_exitWrite hm hr hp ha hs hk)
    (fun t j => (State.exitWord_track _ r _ t j).units) fun j hj => lt_of_mem_slotsTouched (List.mem_of_mem_take hj)

/-- R118: no print status word changes the mode, so that it may as well be looked at slot by slot. -/
theorem State.takeStatusWrite_eq_foldl (printer : Option Nat) (base : Nat) (r : Request) (s : State) :
    s.takeStatusWrite printer base r =
      (slotsTouched r base 8 64).foldl (State.wordTaken (State.statusWord printer r base)) s := by
  unfold State.takeStatusWrite
  split
  · exact (State.foldl_wordTaken_standby _ _ ‹_›).symm
  · refine (foldl_congr_of_kept (I := fun t : State => t.mode ≠ .standby) (fun t ht j _ => if_neg ht)
      (fun t ht j _ => ?_) ‹_›).symm
    rwa [State.statusWord_mode]

end Writes

/-! ### Exit words, one after another (R86; log entry 7) -/

section ExitWords

variable {gate : Option Nat} {r : Request} {base : Nat}

theorem State.retireAged_mode (s : State) : s.retireAged.mode = s.mode :=
  foldl_frame (f := State.loseAged) (R := fun s t : State => t.mode = s.mode) (fun _ => rfl)
    (fun _ _ _ h k => k.trans h) (fun s p => s.retire_mode .lost p) _ s

/-- R83: an exit word leaves the mode, or ends a drain and leaves an empty table. -/
theorem State.exitWord_mode (gate : Option Nat) (r : Request) (base : Nat) (s : State) (j : Nat) :
    (State.exitWord gate r base s j).mode = s.mode ∨
      (s.mode = .drain ∧ (State.exitWord gate r base s j).entries = []) := by
  have exit : ∀ (p st : Nat) (jam : Bool),
      (s.exit p st jam).mode = s.mode ∨ (s.mode = .drain ∧ (s.exit p st jam).entries = []) := fun p st jam => by
    unfold State.exit
    simp only [State.drainEndIfDue_mode, State.drainEndIfDue_entries]
    have mode : ((((s.modifyEntry p (Entry.takeExit st jam)).retire .exit p).ageOlder (s.olderThan p)).retireAged).mode =
        s.mode := (State.retireAged_mode _).trans (State.retire_mode _ _ _)
    rw [mode]
    split
    · exact .inr ‹_›
    · exact .inl rfl
  unfold State.exitWord
  split
  · exact .inl rfl
  · split
    · exact .inl rfl
    · simp only []
      split
      · exact .inl rfl
      · split
        · exact .inl rfl
        · exact exit _ _ _

/-- R86: on an empty table every exit word is a stray one. -/
theorem State.exitWord_empty {s : State} (h : s.entries = []) (j : Nat) :
    State.exitWord gate r base s j = s.raise .strayWrite := by
  have none : ∀ p, s.entry? p = none := fun p => State.entry?_eq_none_iff.mpr (by simp [h])
  unfold State.exitWord
  split
  · rfl
  · split
    · rfl
    · simp only [none]
      split <;> rfl

theorem State.raise_raise (s : State) (f : Flag) : (s.raise f).raise f = s.raise f := by
  simp [State.raise, BitVec.or_assoc]

/-- R86: on an empty table exit words set STRAY_WRITE, and that is all. -/
theorem State.foldl_exitWord_empty (l : List Nat) : ∀ {s : State}, s.entries = [] → l ≠ [] →
    l.foldl (State.exitWord gate r base) s = s.raise .strayWrite := by
  induction l with
  | nil => exact fun _ h => absurd rfl h
  | cons j js ih =>
    intro s h _
    rw [List.foldl_cons, State.exitWord_empty h]
    by_cases hjs : js = []
    · rw [hjs, List.foldl_nil]
    · rw [ih (s := s.raise .strayWrite) h hjs, State.raise_raise]

/-- R86: while no slot finds STANDBY, the mode may as well be looked at slot by slot. -/
theorem State.foldl_exitWord_eq (l : List Nat) : ∀ {s : State},
    (∀ k < l.length, ((l.take k).foldl (State.wordTaken (State.exitWord gate r base)) s).mode ≠ .standby) →
    l.foldl (State.exitWord gate r base) s = l.foldl (State.wordTaken (State.exitWord gate r base)) s := by
  induction l with
  | nil => exact fun _ => rfl
  | cons j js ih =>
    intro s h
    have first : State.wordTaken (State.exitWord gate r base) s j = State.exitWord gate r base s j :=
      if_neg (h 0 (Nat.zero_lt_succ _))
    rw [List.foldl_cons, List.foldl_cons, ← first]
    exact ih fun k hk => h (k + 1) (Nat.succ_lt_succ hk)

/-- R86: once a slot has ended the drain, the slots after it are stray. -/
theorem State.foldl_exitWord_ended (l : List Nat) : ∀ {s : State} {k : Nat}, s.mode ≠ .standby → k < l.length →
    ((l.take k).foldl (State.wordTaken (State.exitWord gate r base)) s).mode = .standby →
    l.foldl (State.exitWord gate r base) s =
      ((l.take k).foldl (State.wordTaken (State.exitWord gate r base)) s).raise .strayWrite := by
  induction l with
  | nil => exact fun _ hk _ => absurd hk (Nat.not_lt_zero _)
  | cons j js ih =>
    intro s k hs hk hend
    cases k with
    | zero => exact absurd hend hs
    | succ k =>
      have hk : k < js.length := Nat.lt_of_succ_lt_succ hk
      have first : State.wordTaken (State.exitWord gate r base) s j = State.exitWord gate r base s j := if_neg hs
      rw [List.take_succ_cons, List.foldl_cons, first] at hend
      rw [List.take_succ_cons, List.foldl_cons, List.foldl_cons, first]
      by_cases hm : (State.exitWord gate r base s j).mode = .standby
      · have empty := ((State.exitWord_mode gate r base s j).resolve_left fun h => hs (h ▸ hm)).2
        rw [State.foldl_wordTaken_standby _ _ hm]
        exact State.foldl_exitWord_empty js empty (List.ne_nil_of_length_pos (Nat.zero_lt_of_lt hk))
      · exact ih hm hk hend

/-- R83: in RUN no exit word ends a drain. -/
theorem State.foldl_wordTaken_run (l : List Nat) {s : State} (h : s.mode = .run) :
    (l.foldl (State.wordTaken (State.exitWord gate r base)) s).mode = .run := by
  refine foldl_keeps (P := fun t : State => t.mode = .run) (fun t j ht => ?_) l h
  rw [State.wordTaken, if_neg (by simp [ht])]
  rcases State.exitWord_mode gate r base t j with hm | ⟨hm, -⟩
  · rw [hm, ht]
  · rw [ht] at hm
    cases hm

end ExitWords

/-- Settles O53: window by window, each slot's own command does to the state what the block does with that slot; in the exit
window, by the mode that the slots find. -/
theorem requestsAreTakenSlotBySlot : Obligations.RequestsAreTakenSlotBySlot := by
  intro s m x r hm hx hplace ha hc hs queued
  obtain ⟨hr, hp⟩ := hplace.map m hm
  have ho := reqOutside_eq_false hc hs
  have form : ∀ {k}, r.wellFormedAs k = true → r.kind = k ∧ 1 ≤ r.beats := fun h => by
    simp only [Request.wellFormedAs, Request.wellFormed, Bool.and_eq_true, decide_eq_true_eq] at h
    exact ⟨h.2, h.1.1.1⟩
  refine ⟨fun hf => ?_, fun hf h0 => ?_⟩
  · obtain ⟨hk, -⟩ := form hf
    refine ⟨fun hd hpr hl => ?_, fun hpr hd hl => ?_⟩
    · rw [State.slotsTaken_dispatchRead hm hr hp ha hs hk]
      exact State.exec_dispatchRead ha hk (partsOf_dispatch hm hk ho hd hpr hl)
    · rw [State.slotsTaken_printRead hm hr hp ha hs hk]
      exact State.exec_printRead ha hk (partsOf_print hm hk ho hd hpr hl)
  · obtain ⟨hk, hb⟩ := form hf
    refine ⟨fun hst he => ?_, fun he hst => ?_⟩
    · rw [touchedSlots_eq_slotsTouched, State.slotsTaken_words
        (State.slotTaken_printStatusWrite hm hr hp ha hs hk) (fun t j => (State.statusWord_status _ r _ t j).units)
        fun _ => lt_of_mem_slotsTouched, ← State.takeStatusWrite_eq_foldl]
      exact State.exec_printStatusWrite ha hk (partsOf_status hm hp hk hb ho h0 hst he)
    · intro slots upTo
      have exec := State.exec_exitWrite ha hk (partsOf_exit hm hp hk hb ho h0 hst he)
      have taken := State.slotsTaken_exitWrite hm hr hp ha hs hk
      have hlen : slots.length = (slotsTouched r m.exit 8 64).length :=
        (congrArg List.length (touchedSlots_eq_slotsTouched r m.exit 8 64)).trans (List.length_map _)
      have whole := taken slots.length
      rw [hlen, List.take_length, ← hlen] at whole
      refine ⟨fun hmode => ?_, fun hmode => ?_, fun hmode hall => ?_, fun k hlt hmode hend => ?_⟩
      · rw [exec, State.takeExitWrite, if_pos hmode]
      · rw [exec, State.takeExitWrite, if_neg (by simp [hmode]), State.foldl_exitWord_eq _ fun k _ => ?_]
        · rw [show upTo slots.length = _ from whole]
        · rw [State.foldl_wordTaken_run _ hmode]
          decide
      · rw [exec, State.takeExitWrite, if_neg (by simp [hmode]), State.foldl_exitWord_eq _ fun k hlt => ?_]
        · rw [show upTo slots.length = _ from whole]
        · have drains := hall k (hlen ▸ hlt)
          rw [show upTo k = _ from taken k] at drains
          rw [drains]
          decide
      · rw [show upTo k = _ from taken k] at hend ⊢
        rw [exec, State.takeExitWrite, if_neg (by simp [hmode]),
          State.foldl_exitWord_ended _ (by simp [hmode]) (hlen ▸ hlt) hend]
        rfl

end Sys2Proof.Machine
end

section
/-! PROOF. O29: piece-boundary records staged, applied at once, or refused (R78, R151, R153 to R157). -/

namespace Sys2Proof

open Sys2Proof.Machine

/-! ### Codes of section 10.2 -/

theorem channelOfByte_eq (b : BitVec 8) : channelOfByte b = [Channel.v, .r, .l][b.toNat]? := by
  revert b
  decide

theorem modeOfByte_eq (b : BitVec 8) : modeOfByte b = [CompareMode.above, .below, .inside, .outside][b.toNat]? := by
  revert b
  decide

theorem clsOfByte_eq (b : BitVec 8) : clsOfByte b = [Cls.ph, .col, .fl][b.toNat]? := by
  revert b
  decide

theorem channelOfByte_eq_none_iff {b : BitVec 8} : channelOfByte b = none ↔ 2 < b.toNat := by
  rw [channelOfByte_eq, List.getElem?_eq_none_iff]
  rfl

theorem modeOfByte_eq_none_iff {b : BitVec 8} : modeOfByte b = none ↔ 3 < b.toNat := by
  rw [modeOfByte_eq, List.getElem?_eq_none_iff]
  rfl

theorem clsOfByte_eq_none_iff {b : BitVec 8} : clsOfByte b = none ↔ 2 < b.toNat := by
  rw [clsOfByte_eq, List.getElem?_eq_none_iff]
  rfl

theorem clsOfByte_eq_some {b : BitVec 8} {k : Cls} (h : clsOfByte b = some k) : b.toNat = k.code := by
  rw [clsOfByte_eq] at h
  obtain ⟨hlt, hget⟩ := List.getElem?_eq_some_iff.mp h
  generalize b.toNat = n at hlt hget
  match n, hlt with
  | 0, _ | 1, _ | 2, _ => exact hget ▸ rfl

theorem sideOfByte_eq_none {b : BitVec 8} (h : 1 < b.toNat) : sideOfByte b = none := by
  have h0 : b ≠ 0 := fun hb => by simp [hb] at h
  have h1 : b ≠ 1 := fun hb => by simp [hb] at h
  rw [sideOfByte, if_neg h0, if_neg h1]

/-- Section 10.2: INSIDE and OUTSIDE are the codes 2 and above. -/
theorem modeOfByte_ordered_iff {b : BitVec 8} {md : CompareMode} (h : modeOfByte b = some md) :
    (md = .inside ∨ md = .outside) ↔ 2 ≤ b.toNat := by
  rw [modeOfByte_eq] at h
  obtain ⟨hlt, hget⟩ := List.getElem?_eq_some_iff.mp h
  generalize b.toNat = n at hlt hget
  subst hget
  match n, hlt with
  | 0, _ | 1, _ | 2, _ | 3, _ => simp

/-! ### Comparisons and class tests (R154) -/

/-- R154: what a comparison that is taken gives. -/
theorem ComparisonRecord.comparison_gives {m : ComparisonRecord} {q : Comparison} (h : m.comparison = some q) :
    comparisonGives m q := by
  unfold ComparisonRecord.comparison at h
  split at h
  · rename_i ch md hch hmd
    simp only [] at h
    split at h
    · cases h
    · injection h with h
      subst h
      exact ⟨channelOfByte_eq _ ▸ hch, modeOfByte_eq _ ▸ hmd, rfl, rfl⟩
  · cases h

/-- R154: the comparisons that are out of range. -/
theorem ComparisonRecord.comparison_eq_none_iff (m : ComparisonRecord) :
    m.comparison = none ↔ comparisonBreaks m := by
  unfold ComparisonRecord.comparison comparisonBreaks
  cases hch : channelOfByte m.channel with
  | none => simp [channelOfByte_eq_none_iff.mp hch]
  | some ch =>
    have named : ¬2 < m.channel.toNat := fun hn => by simp [channelOfByte_eq_none_iff.mpr hn] at hch
    cases hmd : modeOfByte m.mode with
    | none => simp [modeOfByte_eq_none_iff.mp hmd]
    | some md =>
      have known : ¬3 < m.mode.toNat := fun hn => by simp [modeOfByte_eq_none_iff.mpr hn] at hmd
      have order := modeOfByte_ordered_iff hmd
      simp only [named, known, false_or, ← order]
      exact ite_eq_left_iff.trans (by simp [clampTo])

/-- R154: the secondary comparison is out of range when it is present and breaks a range. -/
theorem ClassTestRecord.secondaryTest_eq_none_iff (m : ClassTestRecord) :
    m.secondaryTest = none ↔ m.secondaryPresent = true ∧ comparisonBreaks m.secondary := by
  unfold ClassTestRecord.secondaryTest
  rw [← ComparisonRecord.comparison_eq_none_iff]
  cases m.secondaryPresent <;> simp

theorem ClassTestRecord.secondaryTest_gives {m : ClassTestRecord} {q : Option Comparison} (h : m.secondaryTest = some q) :
    (m.secondaryPresent = false → q = none) ∧
      (m.secondaryPresent = true → ∃ c, q = some c ∧ comparisonGives m.secondary c) := by
  unfold ClassTestRecord.secondaryTest at h
  split at h
  · rename_i hp
    obtain ⟨c, hc, rfl⟩ := Option.map_eq_some_iff.mp h
    exact ⟨fun hn => by simp [hp] at hn, fun _ => ⟨c, rfl, ComparisonRecord.comparison_gives hc⟩⟩
  · rename_i hp
    injection h with h
    exact ⟨fun _ => h.symm, fun hn => absurd hn hp⟩

/-- R154: the ranges of m, L, M, w and E. -/
theorem ClassTestRecord.numbersInRange_eq_false_iff (m : ClassTestRecord) :
    m.numbersInRange = false ↔
      m.runFloor = 0 ∨ m.minLines = 0 ∨ 160 < m.minLines.toNat ∨ m.minHits = 0 ∨ 40800 < m.minHits.toNat ∨
        m.weight = 0 ∨ (m.earlyHits ≠ 0 ∧ m.earlyHits.toNat < m.minHits.toNat) := by
  have zero : ∀ {n : Nat} (b : BitVec n), b.toNat < 1 ↔ b = 0 := fun b => by
    rw [Nat.lt_one_iff, ← BitVec.toNat_inj]
    rfl
  have early : m.early = min m.earlyHits.toNat 40800 := rfl
  simp only [ClassTestRecord.numbersInRange, Bool.and_eq_false_iff, Bool.or_eq_false_iff, decide_eq_false_iff_not,
    not_not, not_le, or_assoc, zero, ne_eq]
  by_cases hh : 40800 < m.minHits.toNat
  · simp [hh]
  · have clamp : ¬m.early = 0 ∧ m.early < m.minHits.toNat ↔ ¬m.earlyHits = 0 ∧ m.earlyHits.toNat < m.minHits.toNat := by
      rw [early, ← zero m.earlyHits]
      omega
    rw [clamp]

/-- R154: the CLASS_TEST records that are out of range. -/
theorem ClassTestRecord.test_eq_none_iff (m : ClassTestRecord) :
    m.test = none ↔
      2 < m.cls.toNat ∨ comparisonBreaks m.primary ∨ (m.secondaryPresent = true ∧ comparisonBreaks m.secondary) ∨
        m.numbersInRange = false := by
  rw [← clsOfByte_eq_none_iff, ← ComparisonRecord.comparison_eq_none_iff, ← ClassTestRecord.secondaryTest_eq_none_iff]
  unfold ClassTestRecord.test
  cases clsOfByte m.cls with
  | none => simp
  | some k =>
    cases m.primary.comparison with
    | none => simp
    | some p =>
      cases m.secondaryTest with
      | none => simp
      | some q => cases m.numbersInRange <;> simp

/-- R154: the test that a CLASS_TEST record gives. -/
theorem ClassTestRecord.test_gives {m : ClassTestRecord} {k : Cls} {t : ClassTest} (h : m.test = some (k, t)) :
    m.cls.toNat = k.code ∧ comparisonGives m.primary t.primary ∧
      (m.secondaryPresent = false → t.secondary = none) ∧
      (m.secondaryPresent = true → ∃ q, t.secondary = some q ∧ comparisonGives m.secondary q) ∧
      t.runFloor = m.runFloor.toNat ∧ t.minLines = m.minLines.toNat ∧ t.minHits = m.minHits.toNat ∧
      t.weight = m.weight.toNat ∧ t.earlyHits = min m.earlyHits.toNat 40800 := by
  unfold ClassTestRecord.test at h
  split at h
  · rename_i k' p q hk hp hq
    split at h
    · injection h with h
      obtain ⟨rfl, rfl⟩ := Prod.mk.inj h
      obtain ⟨absent, present⟩ := ClassTestRecord.secondaryTest_gives hq
      exact ⟨clsOfByte_eq_some hk, ComparisonRecord.comparison_gives hp, absent, present, rfl, rfl, rfl, rfl, rfl⟩
    · cases h
  · cases h

end Sys2Proof

namespace Sys2Proof.Machine

/-! ### Geometry and decision (R155, R156) -/

theorem GeometryRecord.inRange_eq_false {m : GeometryRecord}
    (h : m.zw.toNat < 16 ∨ 160 < m.zw.toNat ∨ m.zh.toNat < 8 ∨ 255 < m.zh.toNat ∨ m.lineLimit.toNat < 256 ∨
      1023 < m.lineLimit.toNat ∨ 15 < m.lineFaultLimit.toNat) : ¬m.inRange = true := by
  simp only [GeometryRecord.inRange, Bool.and_eq_true, decide_eq_true_eq]
  omega

/-- R156: ranks in range are 1, 2 and 3 in some order. -/
theorem perm_of_ranksPermute {r : PerClass Nat} (h : ranksPermute r = true) : [r.ph, r.col, r.fl].Perm [1, 2, 3] := by
  simp only [ranksPermute, Bool.and_eq_true, decide_eq_true_eq] at h
  obtain ⟨⟨⟨⟨⟨hph, hcol⟩, hfl⟩, hpc⟩, hpf⟩, hcf⟩ := h
  have distinct : [r.ph, r.col, r.fl].Nodup := by simp [hpc, hpf, hcf]
  have named : ∀ n, 1 ≤ n ∧ n ≤ 3 → n ∈ [1, 2, 3] := fun n hn => by
    simp only [List.mem_cons, List.not_mem_nil, or_false]
    omega
  refine (List.subperm_of_subset distinct ?_).perm_of_length_le (Nat.le_refl 3)
  simpa only [List.cons_subset, List.nil_subset, and_true] using ⟨named _ hph, named _ hcol, named _ hfl⟩

theorem DecisionRecord.settings_not_inRange {m : DecisionRecord}
    (h : ¬([m.rankPh.toNat, m.rankCol.toNat, m.rankFl.toNat].Perm [1, 2, 3]) ∨
      min m.xMax.toNat 1023 < min m.xMin.toNat 1023 ∨ min m.yMax.toNat 511 < min m.yMin.toNat 511) :
    ¬m.settings.inRange = true := by
  intro hr
  simp only [DecisionSettings.inRange, Bool.and_eq_true, decide_eq_true_eq] at hr
  obtain ⟨⟨hranks, hx⟩, hy⟩ := hr
  have hx : min m.xMin.toNat 1023 ≤ min m.xMax.toNat 1023 := hx
  have hy : min m.yMin.toNat 511 ≤ min m.yMax.toNat 511 := hy
  exact h.elim (fun hp => hp (perm_of_ranksPermute hranks)) (by omega)

/-! ### Staging (R78, R157) -/

section Stage

variable {s : State}

/-- R157: in RUN and DRAIN the staged set is changed and marked. -/
theorem State.stage_running (h : s.mode ≠ .standby) (f : Settings → Settings) :
    s.stage f = { s with gens := { s.gens with staged := f s.gens.staged, dirty := true } } := if_neg h

/-- R78: in STANDBY, on its empty table, the changed set is applied at once. -/
theorem State.stage_standby (h : s.mode = .standby) (he : s.entries = []) (f : Settings → Settings) :
    s.stage f = { s with gens := s.gens.applied (f s.gens.staged) } := by
  simp [State.stage, h, State.applyStaged, State.releaseGenerations, State.claims, he, Generations.applied]

theorem State.takeCorrection_some {m : CorrectionRecord} {sd : Side} (h : sideOfByte m.side = some sd) :
    s.takeCorrection m = s.stage fun st => { st with correction := st.correction.set sd m.correction } := by
  rw [State.takeCorrection, h]

theorem State.takeClassTest_some {m : ClassTestRecord} {k : Cls} {t : ClassTest} (h : m.test = some (k, t)) :
    s.takeClassTest m = s.stage fun st => { st with tests := st.tests.set k t } := by
  rw [State.takeClassTest, h]

theorem State.takeGeometry_inRange {m : GeometryRecord} (h : m.inRange = true) :
    s.takeGeometry m = s.stage fun st => { st with geometry := m.geometry } := if_pos h

theorem State.takeDecision_inRange {m : DecisionRecord} (h : m.settings.inRange = true) :
    s.takeDecision m = s.stage fun st => { st with decision := m.settings } := if_pos h

/-- R151: a record out of range is refused with the reason RANGE. -/
theorem State.refuse_range (s : State) : s.refuse .range = s.refusedFor .range := s.refuse_eq_refusedFor (by decide)

end Stage

/-- Settles O29: each record by its mode and its range, and what a record gives by its definition. -/
theorem pieceBoundaryRecordsAreStagedAppliedOrRefused : Obligations.PieceBoundaryRecordsAreStagedAppliedOrRefused := by
  refine ⟨fun m sd s hs h => congrArg Host.Outcome.next ?_, fun m k t s hs h => congrArg Host.Outcome.next ?_,
    fun m s hs h => congrArg Host.Outcome.next ?_, fun m s hs h => congrArg Host.Outcome.next ?_,
    fun m sd s hs he h => congrArg Host.Outcome.next ?_, fun m k t s hs he h => congrArg Host.Outcome.next ?_,
    fun m s hs he h => congrArg Host.Outcome.next ?_, fun m s hs he h => congrArg Host.Outcome.next ?_,
    fun _ => rfl, fun _ => rfl, fun _ => rfl, fun _ => rfl, fun _ _ _ => ClassTestRecord.test_gives,
    fun m s h => congrArg Host.Outcome.next ?_, fun m s h => congrArg Host.Outcome.next ?_,
    fun m => ?_, fun m s h => congrArg Host.Outcome.next ?_, fun m s h => congrArg Host.Outcome.next ?_⟩
  · rw [State.takeCorrection_some h, State.stage_running hs]
  · rw [State.takeClassTest_some h, State.stage_running hs]
  · rw [State.takeGeometry_inRange h, State.stage_running hs]
  · rw [State.takeDecision_inRange h, State.stage_running hs]
  · rw [State.takeCorrection_some h, State.stage_standby hs he]
  · rw [State.takeClassTest_some h, State.stage_standby hs he]
  · rw [State.takeGeometry_inRange h, State.stage_standby hs he]
  · rw [State.takeDecision_inRange h, State.stage_standby hs he]
  · rw [State.takeCorrection, sideOfByte_eq_none h]
    exact s.refuse_range
  · rw [State.takeClassTest, h]
    exact s.refuse_range
  · rw [ClassTestRecord.test_eq_none_iff, ClassTestRecord.numbersInRange_eq_false_iff]
  · exact (if_neg (GeometryRecord.inRange_eq_false h)).trans s.refuse_range
  · exact (if_neg (DecisionRecord.settings_not_inRange h)).trans s.refuse_range

end Sys2Proof.Machine
end

section
/-! PROOF. O51: the disposition of a retiring entry, row by row (R91). -/

namespace Sys2Proof.Machine

section Rows

variable {e : Entry} {a : DispatchAnswer}

/-- R91 rows 4 to 8: the dispatch answer decides where no provisional disposition stands. -/
theorem Entry.dispositionFor_exit (h : e.disposition = none) : e.dispositionFor .exit = e.dispatchedDisposition := by
  simp [Entry.dispositionFor, h]

/-- R91 rows 4 to 6: every kind of answer but STAMP_OK gives its disposition by itself. -/
theorem Entry.dispatchedDisposition_of_kind (h : e.dispatch = some a) (hk : a.kind ≠ .stampOk) :
    e.dispatchedDisposition = match a.kind with
      | .cullNone => .cullNone
      | .cullAmbig => .cullAmbig
      | .cullCorner => .cullCorner
      | .cullFault => .cullFault
      | .cullLate => .cullLate
      | .meter => .meter
      | _ => .facedUncancelled := by
  simp only [Entry.dispatchedDisposition, h]
  cases hc : a.kind
  case stampOk => exact absurd hc hk
  all_goals rfl

/-- R91 row 7: PRINT, with the print status absent or OK. -/
theorem Entry.printedWell_iff : e.printedWell = true ↔
    (∃ p x y die, e.print = some { piece := p, action := .print x y die }) ∧
      (e.printStatus = none ∨ e.printStatus = some .ok) := by
  unfold Entry.printedWell
  rw [Bool.and_eq_true]
  refine and_congr ?_ ?_
  · cases e.print with
    | none => simp
    | some w =>
      cases w with
      | mk piece action => cases action <;> simp
  · cases e.printStatus with
    | none => simp
    | some st => cases st <;> simp

/-- R91 row 7: a piece printed well has its winner's disposition. -/
theorem Entry.dispatchedDisposition_printed (h : e.dispatch = some a) (hk : a.kind = .stampOk)
    (hp : e.printedWell = true) {w : Winner} (hw : e.decision.bind Decision.winner = some w) :
    e.dispatchedDisposition =
      match w.cls with
      | .ph => .facedPh
      | .col => .facedColour
      | .fl => .facedUncancelled := by
  simp only [Entry.dispatchedDisposition, h, hk, hp, if_true, Entry.winnerClass, hw, Option.map_some]
  cases w.cls <;> rfl

/-- R91 row 8: any other piece dispatched STAMP_OK. -/
theorem Entry.dispatchedDisposition_unprinted (h : e.dispatch = some a) (hk : a.kind = .stampOk)
    (hp : ¬e.printedWell = true) : e.dispatchedDisposition = .facedUncancelled := by
  simp only [Entry.dispatchedDisposition, h, hk, hp, if_false, Bool.false_eq_true]

/-- R91 row 7: PRINT_UNCONFIRMED, without a print status. -/
theorem Entry.retired_hasRemark_printUnconfirmed {c : RetireCause}
    (h : e.dispositionFor c = .facedPh ∨ e.dispositionFor c = .facedColour) :
    (e.retired c).hasRemark .printUnconfirmed = true ↔
      e.printStatus = none ∨ e.hasRemark .printUnconfirmed = true := by
  have remark : ∀ b f, (Entry.addRemarkIf b .printUnconfirmed f).hasRemark .printUnconfirmed =
      (b || f.hasRemark .printUnconfirmed) := fun b f => by
    cases b
    · rfl
    · exact (Entry.hasRemark_addRemark _ _ _).trans (by simp)
  rw [Entry.retired, remark, Bool.or_eq_true, Entry.unconfirmed, Bool.and_eq_true, decide_eq_true_eq,
    Option.isNone_iff_eq_none]
  exact or_congr (and_iff_right h) .rfl

end Rows

/-- Settles O51: by the cause, then by the kind of the dispatch answer, then by the print answer and its status. -/
theorem dispositionFollowsItsRows : Obligations.DispositionFollowsItsRows := by
  intro e
  refine ⟨rfl, rfl, fun h => by simp [Entry.dispositionFor, h], fun h => ⟨fun hn => ?_, fun a ha => ?_⟩⟩
  · simp only [Entry.dispositionFor_exit h, Entry.dispatchedDisposition, hn]
  · simp only [Entry.dispositionFor_exit h]
    have row : ∀ k : OutcomeKind, k ≠ .stampOk → a.kind = k → _ := fun k hne hk =>
      Entry.dispatchedDisposition_of_kind ha (hk ▸ hne)
    refine ⟨fun hk => ?_, fun hk => ?_, fun hk => ?_, fun hk => ?_, fun hk => ?_, fun hk => ?_, fun hk =>
      ⟨fun p x y die w hp hst hw => ?_, fun hn => ?_⟩⟩
    · rw [row _ (by decide) hk, hk]
    · rw [row _ (by decide) hk, hk]
    · rw [row _ (by decide) hk, hk]
    · rw [row _ (by decide) hk, hk]
    · rw [row _ (by decide) hk, hk]
    · rw [row _ (by decide) hk, hk]
    · have printed := Entry.dispatchedDisposition_printed ha hk (Entry.printedWell_iff.mpr ⟨⟨p, x, y, die, hp⟩, hst⟩) hw
      refine ⟨fun hc => by rw [printed, hc], fun hc => by rw [printed, hc], fun hc => ?_⟩
      refine Entry.retired_hasRemark_printUnconfirmed ?_
      rw [Entry.dispositionFor_exit h, printed]
      cases hcls : w.cls
      · exact .inl rfl
      · exact .inr rfl
      · exact absurd hcls hc
    · refine Entry.dispatchedDisposition_unprinted ha hk fun hw => ?_
      obtain ⟨⟨p, x, y, die, hp⟩, hst⟩ := Entry.printedWell_iff.mp hw
      rcases hn with hn | ⟨q, why, hn⟩ | hn
      · simp [hp] at hn
      · simp [hp] at hn
      · rcases hst with hst | hst <;> simp [hst] at hn

end Sys2Proof.Machine
end

section
/-! PROOF. O46: a dispatch read of one slot, answered by memory, the stored word, the decision part or LATE (R93 to R102). -/

namespace Sys2Proof.Machine

/-! ### The read of one slot -/

section OneSlot

variable {s : State} {m : MemoryMap} {base size j : Nat} {r : Request}

/-- R94, R112: the plan of a slot's own read replaces all of its bytes. -/
theorem State.SlotRequest.planOf_eq_wholePlan {k : ReqKind} (h : s.SlotRequest k base size j r) {bytes : List Byte}
    (hb : bytes.length = size) : planOf r (base + size * j) bytes = wholePlan bytes := by
  have hlo := h.addr
  have hlen := h.length
  have hhi : reqHi r = reqLo r + 8 * r.beats := rfl
  rw [planOf, wholePlan, ← List.filterMap_eq_map]
  refine List.filterMap_congr fun o ho => ?_
  have hlt := List.mem_range.mp ho
  have offset : base + size * j + o - reqLo r = o := by omega
  rw [if_pos (by omega), offset]
  rfl

/-- R93, R160: a dispatch read falls into the dispatch window alone. -/
theorem State.SlotRequest.partsOf_dispatch (h : s.SlotRequest .read m.dispatch 8 j r) (hm : s.setup.map = some m) :
    partsOf s.setup r = [(m.dispatch, .dispatch)] := by
  obtain ⟨inRange, placed⟩ := h.placed.map m hm
  have align := (MemoryMap.slotWindows inRange placed).1.align
  have print := h.within.not_touches (MemoryMap.apart placed (i := 3) (j := 4) (by decide) (by decide))
  have live := h.within.not_touches (MemoryMap.apart placed (i := 3) (j := 7) (by decide) (by decide))
  exact Machine.partsOf_dispatch hm h.kind (h.not_outside align) h.within.touches print live

/-- R93: an accepted dispatch read is queued with what its slot gives. -/
theorem State.SlotRequest.exec_dispatch (h : s.SlotRequest .read m.dispatch 8 j r) (hm : s.setup.map = some m)
    {x : SourceTable} (hx : s.setup.sources = some x) :
    let q := State.dispatchSlot (some x.gate) r m.dispatch (s, []) j
    exec (.dispatchRead r) s = .next (q.1.queued r q.2) := by
  have exec := State.exec_dispatchRead h.room h.kind (h.partsOf_dispatch hm)
  rwa [hx, State.takeDispatchRead, h.slotsTouched] at exec

end OneSlot

/-! ### The entry of a slot (R95) -/

section SlotEntry

variable {s : State} {j : Nat} {older younger : List Entry} {e : Entry}

theorem State.slotEntry_eq_none_iff : s.slotEntry j = none ↔ ∀ e ∈ s.entries, e.piece % 64 ≠ j := by
  simp [State.slotEntry]

theorem State.MatchedBy.slotEntry (h : s.MatchedBy j older e younger) : s.slotEntry j = some e :=
  List.find?_eq_some_iff_append.mpr
    ⟨decide_eq_true h.slot, older, younger, h.list, fun q hq => by simpa using h.oldest q hq⟩

theorem State.MatchedBy.placedAt (h : s.MatchedBy j older e younger) : s.PlacedAt older e younger :=
  State.placedAt_of_nodup h.list h.distinct

end SlotEntry

/-! ### The slot's answer (R95 to R101) -/

/-- R95, R96: from another source than the gate, or with no entry of the slot, memory answers. -/
theorem State.dispatchSlot_unanswered {s : State} {gate base j : Nat} {r : Request} {plan : FillPlan}
    (h : gate ≠ r.source.toNat ∨ ∀ e ∈ s.entries, e.piece % 64 ≠ j) :
    State.dispatchSlot (some gate) r base (s, plan) j = (s, plan) := by
  unfold State.dispatchSlot
  by_cases hg : gate = r.source.toNat
  · have vacant := State.slotEntry_eq_none_iff.mpr (h.resolve_left (not_not.mpr hg))
    simp only [hg, ne_eq, not_true_eq_false, if_false, vacant]
  · rw [if_pos (by simpa using hg)]

theorem State.dispatchSlot_answered {s : State} {gate base j : Nat} {r : Request} {e : Entry}
    (hg : gate = r.source.toNat) (he : s.slotEntry j = some e) :
    State.dispatchSlot (some gate) r base (s, []) j =
      ((s.answerDispatch e).1, planOf r (base + 8 * j) (s.answerDispatch e).2.bytes) := by
  simp only [State.dispatchSlot, hg, ne_eq, not_true_eq_false, if_false, he, List.nil_append]

/-- R95, R102: a dispatch read of the gate is queued with the word of the slot's oldest entry. -/
theorem State.SlotRequest.exec_dispatch_answered {s : State} {m : MemoryMap} {j : Nat} {r : Request}
    (h : s.SlotRequest .read m.dispatch 8 j r) (hm : s.setup.map = some m) {x : SourceTable}
    (hx : s.setup.sources = some x) (hg : x.gate = r.source.toNat) {older younger : List Entry} {e : Entry}
    (he : s.MatchedBy j older e younger) {t : State} {a : DispatchAnswer} (ha : s.answerDispatch e = (t, a)) :
    exec (.dispatchRead r) s = .next (t.queued r (wholePlan a.bytes)) := by
  have exec := h.exec_dispatch hm hx
  rwa [State.dispatchSlot_answered hg he.slotEntry, ha, h.planOf_eq_wholePlan a.length_bytes] at exec

section Answer

variable {s : State} {older younger : List Entry} {e : Entry}

/-- R97: the stored word again. -/
theorem State.answerDispatch_stored {a : DispatchAnswer} (ha : e.dispatch = some a) : s.answerDispatch e = (s, a) := by
  simp only [State.answerDispatch, ha]

/-- R98: the word of the decision part, stored. -/
theorem State.PlacedAt.answerDispatch_decided (h : s.PlacedAt older e younger) (hn : e.dispatch = none) {d : Decision}
    (hd : e.decision = some d) :
    let a := e.decidedAnswer d s.cancelEffective s.trays.inForce
    s.answerDispatch e = ({ s with entries := older ++ { e with dispatch := some a } :: younger }, a) := by
  simp only [State.answerDispatch, hn, hd, h.modifyEntry]

/-- R101, R92: the LATE word stored with its provisional disposition, and LATE_DISPATCH. -/
theorem State.PlacedAt.answerDispatch_late (h : s.PlacedAt older e younger) (hn : e.dispatch = none)
    (hd : e.decision = none) :
    let a := e.lateAnswer s.trays.inForce
    s.answerDispatch e =
      (({ s with entries := older ++ e.storeLate a :: younger } : State).flagged 7, a) := by
  simp only [State.answerDispatch, hn, hd, h.modifyEntry]
  rfl

end Answer

/-- R99, R107: a STAMP is dispatched STAMP_OK while neither SUSPENDED nor HELD is set. -/
theorem State.kind_stamp (s : State) : Outcome.stamp.kind s.cancelEffective =
    if s.cancel.suspended = false ∧ s.cancel.held = false then .stampOk else .stampHeld := by
  simp only [Outcome.kind, State.cancelEffective, Bool.and_eq_true, Bool.not_eq_true']

/-- Settles O46: the check of R95, then what the matched entry already holds: its word, its decision part, or neither. -/
theorem dispatchReadIsAnsweredOnce : Obligations.DispatchReadIsAnsweredOnce := by
  intro s m x j r hm hx h
  refine ⟨fun hf => ?_, fun older younger e hg he => ⟨fun a ha => ?_, fun d hn hd => ?_, fun hn hd => ?_⟩⟩
  · have exec := h.exec_dispatch hm hx
    rwa [State.dispatchSlot_unanswered hf] at exec
  · exact h.exec_dispatch_answered hm hx hg he (State.answerDispatch_stored ha)
  · intro kind a
    have hkind : d.outcome.kind s.cancelEffective = kind := by
      cases ho : d.outcome
      case stamp => simpa only [kind, ho] using s.kind_stamp
      all_goals simp only [kind, ho, Outcome.kind]
    have ha : e.decidedAnswer d s.cancelEffective s.trays.inForce = a := by
      simp only [Entry.decidedAnswer, hkind, a, Bool.decide_and, Bool.decide_eq_true]
    have answer := he.placedAt.answerDispatch_decided hn hd
    rw [ha] at answer
    exact h.exec_dispatch_answered hm hx hg he answer
  · exact h.exec_dispatch_answered hm hx hg he (he.placedAt.answerDispatch_late hn hd)

end Sys2Proof.Machine
end

section
/-! PROOF. O8: the misprint count lies in 0..2, and stands at 2 only while HELD is set (R110, R119, R121, R163). -/

namespace Sys2Proof.Machine

/-! ### What leaves cancel control alone -/

@[simp] theorem State.stage_cancel (s : State) (f : Settings → Settings) : (s.stage f).cancel = s.cancel := by
  unfold State.stage
  simp only []
  split <;> rfl

theorem State.directRun_cancel (s : State) : s.directRun.cancel = s.cancel := by
  unfold State.directRun
  split
  · rfl
  · rfl
  · split <;> rfl

theorem State.directDrain_cancel (s : State) : s.directDrain.cancel = s.cancel := by
  unfold State.directDrain
  split
  · exact (State.drainEndIfDue_track _).cancel
  · exact s.refuse_cancel _

theorem State.issueInjected_cancel (s : State) : s.issueInjected.cancel = s.cancel := by
  have spend : ∀ t : State, t.spendFree.cancel = t.cancel := fun t => by
    unfold State.spendFree
    split <;> rfl
  unfold State.issueInjected
  split
  · rfl
  · split
    · rfl
    · simp [spend]

theorem State.recordAnswered_cancel (s : State) (tag : Nat) (st : Status) :
    (s.recordAnswered tag st).cancel = s.cancel := by
  unfold State.recordAnswered
  split
  · rfl
  · simp only [State.joinTrayRecord_cancel]
    split <;> simp [State.releaseBank]

/-! ### What a print status word does (R118 to R121) -/

/-- R118: a status word is stray, or is taken. -/
theorem State.statusWord_cases (printer : Option Nat) (r : Request) (base : Nat) (s : State) (j : Nat) :
    State.statusWord printer r base s j = s.raise .strayWrite ∨
      ∃ piece st, State.statusWord printer r base s j = s.takeStatus piece st := by
  unfold State.statusWord
  split
  · exact .inl rfl
  · split
    · exact .inl rfl
    · simp only []
      split
      · exact .inl rfl
      · split
        · exact .inl rfl
        · exact .inr ⟨_, _, rfl⟩

theorem misprintAfter_le_two (n : Nat) : misprintAfter n ≤ 2 := by
  unfold misprintAfter
  split <;> omega

/-! ### The law -/

namespace State.MisprintLaw

variable {s t : State}

theorem of_cancel (h : s.MisprintLaw) (hc : t.cancel = s.cancel) : t.MisprintLaw := by
  rwa [State.MisprintLaw, hc]

/-- R110, R163: a count of 0. -/
theorem of_zero (hz : s.cancel.misprints = 0) : s.MisprintLaw :=
  ⟨hz ▸ Nat.zero_le 2, fun h2 => by simp [hz] at h2⟩

/-- R119: HELD may be set at any count. -/
theorem hold (hn : s.cancel.misprints ≤ 2) : s.hold.MisprintLaw := ⟨hn, fun _ => rfl⟩

/-- R121: the count reaches 2 together with the hold. -/
theorem countMisprint (h : s.MisprintLaw) (st : PrintStatus) : (s.countMisprint st).MisprintLaw := by
  cases st with
  | ok => exact of_zero rfl
  | misprint =>
    have hn := misprintAfter_le_two s.cancel.misprints
    unfold State.countMisprint
    simp only []
    split
    · exact hold hn
    · exact ⟨hn, fun h2 => absurd h2 ‹_›⟩
  | headFault => exact h
  | inkOut => exact h

/-- R119, R120: a status word that passed R118. -/
theorem takeStatus (h : s.MisprintLaw) (piece : Nat) (st : PrintStatus) : (s.takeStatus piece st).MisprintLaw := by
  have held : (if st.holds = true then s.hold else s).MisprintLaw := by
    split
    · exact hold h.1
    · exact h
  unfold State.takeStatus
  simp only []
  split
  · exact held.of_cancel rfl
  · split
    · exact (held.of_cancel (State.modifyEntry_cancel _ _ _)).countMisprint st
    · exact held.of_cancel rfl

/-- R118: a write's part in the print status window. -/
theorem takeStatusWrite (h : s.MisprintLaw) (printer : Option Nat) (base : Nat) (r : Request) :
    (s.takeStatusWrite printer base r).MisprintLaw := by
  unfold State.takeStatusWrite
  split
  · exact h
  · refine foldl_keeps (P := State.MisprintLaw) (fun t j ht => ?_) _ h
    rcases State.statusWord_cases printer r base t j with he | ⟨piece, st, he⟩
    · exact he ▸ ht.of_cancel rfl
    · exact he ▸ ht.takeStatus piece st

end State.MisprintLaw

/-- Every block keeps the law: only print status words raise the count, and what clears HELD leaves a count of 0. -/
theorem misprintLaw_kept : Kept State.MisprintLaw where
  pending _ _ h := h.of_cancel rfl
  path _ _ h := h.of_cancel rfl
  status _ _ h := h.of_cancel rfl
  suspend _ h := ⟨h.1, h.2⟩
  resume _ h := ⟨h.1, h.2⟩
  release _ _ := .of_zero rfl
  shadows _ _ h := h.of_cancel rfl
  lanes _ _ h := h.of_cancel rfl
  alarm _ _ h := h.of_cancel rfl
  map s m h := by
    unfold State.takeMemoryMap
    repeat' split
    all_goals exact h.of_cancel (by simp)
  sources s m h := by
    unfold State.takeSourceTable
    repeat' split
    all_goals exact h.of_cancel (by simp)
  correction s m h := by
    unfold State.takeCorrection
    split <;> exact h.of_cancel (by simp)
  classTest s m h := by
    unfold State.takeClassTest
    split <;> exact h.of_cancel (by simp)
  geometry s m h := by
    unfold State.takeGeometry
    split <;> exact h.of_cancel (by simp)
  decision s m h := by
    unfold State.takeDecision
    split <;> exact h.of_cancel (by simp)
  traySet s m h := by
    unfold State.takeTraySet
    repeat' split
    all_goals exact h.of_cancel (by simp)
  run s h := h.of_cancel s.directRun_cancel
  drain s h := h.of_cancel s.directDrain_cancel
  stby s h := h.of_cancel s.directStby_track.cancel
  restart s h := by
    unfold State.directRestart
    split
    · exact .of_zero rfl
    · exact h.of_cancel (by simp)
  tclose s h := h.of_cancel (s.requestClose_cancel _)
  drainEnd s h := h.of_cancel s.drainEndIfDue_track.cancel
  settle s h := h.of_cancel s.settlePending_cancel
  join s h := h.of_cancel s.joinTrayRecord_cancel
  image s src sd base r h := h.of_cancel (s.offerImage_track src sd base r).cancel
  exit s gate base r h := h.of_cancel (s.takeExitWrite_track gate base r).cancel
  print _ printer base r h := h.takeStatusWrite printer base r
  dispatch gate base r q h := h.of_cancel (State.takeDispatchRead_track gate base r q).cancel
  printRead printer base r q h := h.of_cancel (State.takePrintRead_track printer base r q).cancel
  injected s h := h.of_cancel s.issueInjected_cancel
  answered s tag st h := h.of_cancel (s.recordAnswered_cancel tag st)
  reset _ _ _ := .of_zero rfl

/-- Settles O8: each block keeps the law, so every step does. -/
theorem stepKeepsMisprintLaw : Obligations.StepKeepsMisprintLaw := fun _ _ h e => misprintLaw_kept.step h e

end Sys2Proof.Machine
end

section
/-! PROOF. O47: a print read of one slot, answered by memory, the stored record, or the record formed by R116 (R111 to
R117). -/

namespace Sys2Proof.Machine

/-! ### The read of one slot -/

section OneSlot

variable {s : State} {m : MemoryMap} {base size j : Nat} {r : Request}

/-- R111: a read of one slot is its own part of that slot. -/
theorem State.SlotRequest.slotPart_eq (h : s.SlotRequest .read base size j r) :
    slotPart size r (base + size * j) = r := by
  have addr : BitVec.ofNat 32 (base + size * j) = r.addr := by
    rw [← h.addr, reqLo, BitVec.ofNat_toNat, BitVec.setWidth_eq]
  have beats : size / 8 = r.beats := by
    have := h.length
    omega
  have payload : r.payload = [] := by
    have form := h.form
    simp only [Request.wellFormedAs, Request.wellFormed, h.kind, Bool.and_eq_true, beq_iff_eq] at form
    exact List.length_eq_zero_iff.mp form.1.2
  have kind := h.kind
  cases r
  simp_all [slotPart]

/-- R111, R160: a print read falls into the print window alone. -/
theorem State.SlotRequest.partsOf_print (h : s.SlotRequest .read m.print 16 j r) (hm : s.setup.map = some m) :
    partsOf s.setup r = [(m.print, .print)] := by
  obtain ⟨inRange, placed⟩ := h.placed.map m hm
  have w := (MemoryMap.slotWindows inRange placed).2.1
  have within := h.slotPart_eq ▸ w.within h.slot r
  have inPage := h.slotPart_eq ▸ w.not_outside h.slot h.source
  have dispatch := within.not_touches
    (spansMeet_comm _ _ ▸ MemoryMap.apart placed (i := 3) (j := 4) (by decide) (by decide))
  have live := within.not_touches (MemoryMap.apart placed (i := 4) (j := 7) (by decide) (by decide))
  exact Machine.partsOf_print hm h.kind inPage dispatch within.touches live

/-- R111: an accepted print read is queued with what its slot gives. -/
theorem State.SlotRequest.exec_print (h : s.SlotRequest .read m.print 16 j r) (hm : s.setup.map = some m)
    {x : SourceTable} (hx : s.setup.sources = some x) :
    let q := State.printSlot (some x.printer) r m.print (s, []) j
    exec (.printRead r) s = .next (q.1.queued r q.2) := by
  obtain ⟨inRange, placed⟩ := h.placed.map m hm
  have slot := h.slotPart_eq ▸ (MemoryMap.slotWindows inRange placed).2.1.slotsTouched h.slot r
  have exec := State.exec_printRead h.room h.kind (h.partsOf_print hm)
  rwa [hx, State.takePrintRead, slot] at exec

end OneSlot

/-! ### The slot's answer (R113 to R117) -/

/-- R113: from another source than the printer, or with no entry of the slot, memory answers. -/
theorem State.printSlot_unanswered {s : State} {printer base j : Nat} {r : Request} {plan : FillPlan}
    (h : printer ≠ r.source.toNat ∨ ∀ e ∈ s.entries, e.piece % 64 ≠ j) :
    State.printSlot (some printer) r base (s, plan) j = (s, plan) := by
  unfold State.printSlot
  by_cases hp : printer = r.source.toNat
  · have vacant := State.slotEntry_eq_none_iff.mpr (h.resolve_left (not_not.mpr hp))
    simp only [hp, ne_eq, not_true_eq_false, if_false, vacant]
  · rw [if_pos (by simpa using hp)]

theorem State.printSlot_answered {s : State} {printer base j : Nat} {r : Request} {e : Entry}
    (hp : printer = r.source.toNat) (he : s.slotEntry j = some e) :
    State.printSlot (some printer) r base (s, []) j =
      ((s.answerPrint e).1, planOf r (base + 16 * j) (s.answerPrint e).2.bytes) := by
  simp only [State.printSlot, hp, ne_eq, not_true_eq_false, if_false, he, List.nil_append]

/-- R112, R113: a print read of the printer is queued with the record of the slot's oldest entry. -/
theorem State.SlotRequest.exec_print_answered {s : State} {m : MemoryMap} {j : Nat} {r : Request}
    (h : s.SlotRequest .read m.print 16 j r) (hm : s.setup.map = some m) {x : SourceTable}
    (hx : s.setup.sources = some x) (hp : x.printer = r.source.toNat) {older younger : List Entry} {e : Entry}
    (he : s.MatchedBy j older e younger) {t : State} {a : PrintAnswer} (ha : s.answerPrint e = (t, a)) :
    exec (.printRead r) s = .next (t.queued r (wholePlan a.bytes)) := by
  have exec := h.exec_print hm hx
  rwa [State.printSlot_answered hp he.slotEntry, ha, h.planOf_eq_wholePlan a.length_bytes] at exec

/-- R117: the misroutes are the SKIPs for HOLD and SUSPEND. -/
theorem PrintAction.misroutes_iff (a : PrintAction) : a.misroutes = true ↔ a = .skip .hold ∨ a = .skip .suspend := by
  cases a with
  | print x y die => simp [PrintAction.misroutes]
  | skip why => cases why <;> simp [PrintAction.misroutes]

/-- R115, R117: what a new print answer leaves in its entry. -/
theorem Entry.storePrint_eq (e : Entry) (a : PrintAnswer) : e.storePrint a =
    { e with
      print := some a
      remarks := if a.action = .skip .hold ∨ a.action = .skip .suspend then e.remarks ||| 8#17 else e.remarks } := by
  simp only [← PrintAction.misroutes_iff]
  unfold Entry.storePrint Entry.addRemarkIf
  split <;> rfl

/-- R114: the stored record again. -/
theorem State.answerPrint_stored {s : State} {e : Entry} {a : PrintAnswer} (ha : e.print = some a) :
    s.answerPrint e = (s, a) := by
  simp only [State.answerPrint, ha]

/-- R115: the record formed now, stored. -/
theorem State.PlacedAt.answerPrint_formed {s : State} {older younger : List Entry} {e : Entry}
    (h : s.PlacedAt older e younger) (hn : e.print = none) :
    let a : PrintAnswer := { piece := e.piece, action := e.printAction s.cancel }
    s.answerPrint e = ({ s with entries := older ++ e.storePrint a :: younger }, a) := by
  simp only [State.answerPrint, hn, h.modifyEntry]

/-! ### The rows of R116 -/

section Rows

variable {e : Entry} {c : Cancel} {a : DispatchAnswer}

theorem Entry.printAction_notDispatched (h : e.dispatch = none) : e.printAction c = .skip .notDispatched := by
  simp only [Entry.printAction, h]

theorem Entry.printAction_late (h : e.dispatch = some a) (hl : a.late = true) : e.printAction c = .skip .late := by
  simp only [Entry.printAction, h, hl, if_true]

theorem Entry.printAction_culled (h : e.dispatch = some a) (hl : a.late = false)
    (hk : a.kind ∈ [OutcomeKind.cullNone, .cullAmbig, .cullCorner, .cullFault]) : e.printAction c = .skip .culled := by
  simp only [List.mem_cons, List.not_mem_nil, or_false] at hk
  rcases hk with hk | hk | hk | hk <;> simp [Entry.printAction, h, hl, hk]

theorem Entry.printAction_meter (h : e.dispatch = some a) (hl : a.late = false) (hk : a.kind = .meter) :
    e.printAction c = .skip .notStamp := by
  simp [Entry.printAction, h, hl, hk]

theorem Entry.printAction_stampHeld (h : e.dispatch = some a) (hl : a.late = false) (hk : a.kind = .stampHeld) :
    e.printAction c = .skip .routedHeld := by
  simp [Entry.printAction, h, hl, hk]

theorem Entry.printAction_hold (h : e.dispatch = some a) (hl : a.late = false) (hk : a.kind = .stampOk)
    (hh : c.held = true) : e.printAction c = .skip .hold := by
  simp [Entry.printAction, h, hl, hk, hh]

theorem Entry.printAction_suspend (h : e.dispatch = some a) (hl : a.late = false) (hk : a.kind = .stampOk)
    (hh : c.held = false) (hs : c.suspended = true) : e.printAction c = .skip .suspend := by
  simp [Entry.printAction, h, hl, hk, hh, hs]

theorem Entry.printAction_band (h : e.dispatch = some a) (hl : a.late = false) (hk : a.kind = .stampOk)
    (hh : c.held = false) (hs : c.suspended = false) {d : Decision} (hd : e.decision = some d)
    (hp : d.plan = some .skipBand ∨ d.plan = some .skipNotStamp) : e.printAction c = .skip .band := by
  rcases hp with hp | hp <;> simp [Entry.printAction, h, hl, hk, hh, hs, hd, hp]

theorem Entry.printAction_print (h : e.dispatch = some a) (hl : a.late = false) (hk : a.kind = .stampOk)
    (hh : c.held = false) (hs : c.suspended = false) {d : Decision} (hd : e.decision = some d) {die : Nat}
    {q : Nat × Nat} (hp : d.plan = some (.print die)) (hq : d.position = some q) :
    e.printAction c = .print q.1 q.2 die := by
  simp [Entry.printAction, h, hl, hk, hh, hs, hd, hp, hq]

end Rows

/-- Settles O47: the check of R113, then whether the matched entry holds a record; and the rows of R116, one by one. -/
theorem printReadIsAnsweredOnce : Obligations.PrintReadIsAnsweredOnce := by
  refine ⟨fun s m x j r hm hx h => ⟨fun hf => ?_, fun older younger e hp he => ⟨fun a ha => ?_, fun hn => ?_⟩⟩,
    fun c e => ⟨Entry.printAction_notDispatched, fun a ha => ⟨Entry.printAction_late ha, fun hl => ?_⟩⟩⟩
  · have exec := h.exec_print hm hx
    rwa [State.printSlot_unanswered hf] at exec
  · exact h.exec_print_answered hm hx hp he (State.answerPrint_stored ha)
  · intro a misrouted
    have answer : s.answerPrint e = (_, a) := he.placedAt.answerPrint_formed hn
    rw [Entry.storePrint_eq] at answer
    exact h.exec_print_answered hm hx hp he answer
  · exact ⟨Entry.printAction_culled ha hl, Entry.printAction_meter ha hl, Entry.printAction_stampHeld ha hl,
      Entry.printAction_hold ha hl, Entry.printAction_suspend ha hl, fun d hd hk hh hs =>
        ⟨Entry.printAction_band ha hl hk hh hs hd, fun _ _ => Entry.printAction_print ha hl hk hh hs hd⟩⟩

end Sys2Proof.Machine
end

section
/-! PROOF. O52: a print status word is unseen, refused, recorded in its entry, or stray (R118 to R122). -/

namespace Sys2Proof.Machine

/-! ### The write of one slot (R118) -/

section OneSlot

variable {s : State} {m : MemoryMap} {j : Nat} {r : Request}

/-- R118, R160: a print status word falls into the print status window alone. -/
theorem State.SlotRequest.partsOf_status (h : s.SlotRequest .write m.status 8 j r) (hm : s.setup.map = some m) :
    partsOf s.setup r = [(m.status, .status)] := by
  obtain ⟨inRange, placed⟩ := h.placed.map m hm
  have align := (MemoryMap.slotWindows inRange placed).2.2.1.align
  have beats : 1 ≤ r.beats := by
    have := h.length
    omega
  have setup := h.within.not_touches
    (spansMeet_comm _ _ ▸ MemoryMap.apart placed (i := 0) (j := 5) (by decide) (by decide))
  have exit := h.within.not_touches (MemoryMap.apart placed (i := 5) (j := 6) (by decide) (by decide))
  exact Machine.partsOf_status hm placed h.kind beats (h.not_outside align) setup h.within.touches exit

/-- R118, R171: an accepted print status word is queued, and cancel control takes it unless the mode is STANDBY. -/
theorem State.SlotRequest.exec_status (h : s.SlotRequest .write m.status 8 j r) (hm : s.setup.map = some m)
    {x : SourceTable} (hx : s.setup.sources = some x) :
    exec (.printStatusWrite r) s = .next (if s.mode = .standby then s.queued r []
      else State.statusWord (some x.printer) r m.status (s.queued r []) j) := by
  refine congrArg Host.Outcome.next ((State.present_part h.room h.kind (h.partsOf_status hm)).trans ?_)
  simp only [State.takePart, State.takeStatusWrite, h.slotsTouched, hx, printerId, Option.map_some, List.foldl_cons,
    List.foldl_nil]
  rfl

end OneSlot

/-! ### The check of R118 -/

/-- R118: the results 1 to 4 name the statuses, no other does. -/
theorem PrintStatus.ofCode_eq_none_iff {c : Nat} : PrintStatus.ofCode c = none ↔ c = 0 ∨ 4 < c := by
  unfold PrintStatus.ofCode
  repeat' split
  all_goals simp only [reduceCtorEq, false_iff, true_iff]
  all_goals omega

section Check

variable {s : State} {printer base j : Nat} {r : Request}

/-- R118: from another source, not all enabled, for another slot, or with no result: STRAY_WRITE. -/
theorem State.statusWord_stray (ha : reqLo r = base + 8 * j)
    (h : printer ≠ r.source.toNat ∨ writtenBytes r (reqLo r) 8 = none ∨
      ∃ bs, writtenBytes r (reqLo r) 8 = some bs ∧
        (half bs 0 % 64 ≠ j ∨ (byteAt bs 2).toNat = 0 ∨ 4 < (byteAt bs 2).toNat)) :
    State.statusWord (some printer) r base s j = s.flagged 13 := by
  unfold State.statusWord
  rw [← ha]
  by_cases hp : printer = r.source.toNat
  · rw [if_neg (by simp [hp])]
    rcases h with h | h | ⟨bs, hb, h⟩
    · exact absurd hp h
    · rw [h]
      rfl
    · rw [hb]
      by_cases hs : half bs 0 % 64 = j
      · have none := PrintStatus.ofCode_eq_none_iff.mpr (h.resolve_left fun hne => hne hs)
        simp only [hs, ne_eq, not_true_eq_false, if_false, none]
        rfl
      · simp only [ne_eq, hs, not_false_eq_true, if_true]
        rfl
  · rw [if_pos (by simpa using hp)]
    rfl

/-- R118: any other status word is taken. -/
theorem State.statusWord_taken (ha : reqLo r = base + 8 * j) (hp : printer = r.source.toNat) {bs : List Byte}
    (hb : writtenBytes r (reqLo r) 8 = some bs) (hs : half bs 0 % 64 = j) {st : PrintStatus}
    (hst : PrintStatus.ofCode (byteAt bs 2).toNat = some st) :
    State.statusWord (some printer) r base s j = s.takeStatus (half bs 0) st := by
  unfold State.statusWord
  rw [← ha, if_neg (by simp [hp]), hb]
  simp only [hs, ne_eq, not_true_eq_false, if_false, hst]

end Check

/-- R118: a checked print status word is taken by R119 and R120. -/
theorem State.SlotRequest.exec_status_taken {s : State} {m : MemoryMap} {j : Nat} {r : Request}
    (h : s.SlotRequest .write m.status 8 j r) (hm : s.setup.map = some m) {x : SourceTable}
    (hx : s.setup.sources = some x) (hmode : s.mode ≠ .standby) (hp : x.printer = r.source.toNat) {bs : List Byte}
    (hb : writtenBytes r (reqLo r) 8 = some bs) (hs : half bs 0 % 64 = j) {st : PrintStatus}
    (hst : byteAt bs 2 = BitVec.ofNat 8 st.code) :
    exec (.printStatusWrite r) s = .next ((s.queued r []).takeStatus (half bs 0) st) := by
  have named : PrintStatus.ofCode (byteAt bs 2).toNat = some st := by
    rw [hst]
    cases st <;> rfl
  rw [h.exec_status hm hx, if_neg hmode, State.statusWord_taken h.addr hp hb hs named]

/-! ### A word against the entry (R120) -/

theorem Entry.awaitsStatus_iff {e : Entry} : e.awaitsStatus = true ↔
    (∃ p x y die, e.print = some { piece := p, action := .print x y die }) ∧ e.printStatus = none := by
  unfold Entry.awaitsStatus
  rw [Bool.and_eq_true, Option.isNone_iff_eq_none]
  refine and_congr_left fun _ => ?_
  cases e.print with
  | none => simp
  | some a =>
    cases a with
    | mk piece action => cases action <;> simp

/-- R120: the remark bit of a recorded status. -/
def PrintStatus.remarkBit : PrintStatus → BitVec 17
  | .ok => 0
  | .misprint => 16384
  | .headFault => 32768
  | .inkOut => 65536

theorem Entry.recordStatus_eq (e : Entry) (st : PrintStatus) :
    e.recordStatus st = { e with printStatus := some st, remarks := e.remarks ||| st.remarkBit } := by
  cases st
  case ok => simp [Entry.recordStatus, PrintStatus.remark?, PrintStatus.remarkBit]
  all_goals rfl

/-- R119, R120: a word that an entry awaits is recorded there, held for first and counted after. -/
theorem State.PlacedAt.takeStatus_recorded {s : State} {older younger : List Entry} {e : Entry}
    (h : s.PlacedAt older e younger) (ha : e.awaitsStatus = true) (st : PrintStatus) :
    s.takeStatus e.piece st =
      ({ (if st.holds then s.hold else s) with entries := older ++ e.recordStatus st :: younger } : State).countMisprint
        st := by
  have place : State.PlacedAt (if st.holds = true then s.hold else s) older e younger := by
    split
    · exact ⟨h.list, h.older, h.younger⟩
    · exact h
  unfold State.takeStatus
  simp only [place.entry?, ha, if_true, place.modifyEntry]

/-- R119, R120: a word that no entry awaits is stray, and held for all the same. -/
theorem State.takeStatus_stray {s : State} {piece : Nat}
    (h : ∀ e ∈ s.entries, e.piece = piece → ¬ e.awaitsStatus = true) (st : PrintStatus) :
    s.takeStatus piece st = (if st.holds then s.hold else s).flagged 13 := by
  have entries : (if st.holds = true then s.hold else s).entries = s.entries := by
    split <;> rfl
  unfold State.takeStatus
  simp only []
  split
  · rfl
  · rename_i e he
    have mem : e ∈ s.entries := entries ▸ List.mem_of_find?_eq_some he
    have number : e.piece = piece := by simpa using List.find?_some he
    rw [if_neg (h e mem number)]
    rfl

/-! ### The misprint count (R121) -/

theorem State.countMisprint_first {s : State} (h : s.cancel.misprints = 0) :
    s.countMisprint .misprint = { s with cancel := { s.cancel with misprints := 1 } } := by
  simp [State.countMisprint, h, misprintAfter]

theorem State.countMisprint_again {s : State} (h : 1 ≤ s.cancel.misprints) :
    s.countMisprint .misprint =
      ({ s with cancel := { s.cancel with held := true, misprints := 2 } } : State).flagged 9 := by
  have two : misprintAfter s.cancel.misprints = 2 := by
    unfold misprintAfter
    split <;> omega
  simp only [State.countMisprint, two, if_true]
  rfl

/-- Settles O52: the mode, the check of R118, then whether the named entry awaits a status, by the result. -/
theorem printStatusWordIsRecordedOnce : Obligations.PrintStatusWordIsRecordedOnce := by
  intro s m x j r hm hx h q held
  refine ⟨fun hs => ?_, fun hs hf => ?_, fun bs hs hp hb hj => ⟨fun older younger e p x' y' die hl hd he hpr hn => ?_,
    fun hstray => ?_⟩⟩
  · rw [h.exec_status hm hx, if_pos hs]
  · rw [h.exec_status hm hx, if_neg hs]
    exact congrArg _ (State.statusWord_stray h.addr hf)
  · intro entries
    have recorded : ∀ st : PrintStatus, byteAt bs 2 = BitVec.ofNat 8 st.code → exec (.printStatusWrite r) s = .next
        (({ (if st.holds then q.hold else q) with entries := entries st st.remarkBit } : State).countMisprint st) := by
      intro st hst
      have place : q.PlacedAt older e younger := State.placedAt_of_nodup hl hd
      have awaits := Entry.awaitsStatus_iff.mpr ⟨⟨p, x', y', die, hpr⟩, hn⟩
      rw [h.exec_status_taken hm hx hs hp hb hj hst, ← he, place.takeStatus_recorded awaits, Entry.recordStatus_eq]
    refine ⟨recorded .ok, fun hr h0 => ?_, fun hr h1 => ?_, recorded .headFault, recorded .inkOut⟩
    · exact (recorded .misprint hr).trans (congrArg _ (State.countMisprint_first h0))
    · exact (recorded .misprint hr).trans (congrArg _ (State.countMisprint_again h1))
  · have stray : ∀ st : PrintStatus, byteAt bs 2 = BitVec.ofNat 8 st.code → exec (.printStatusWrite r) s = .next
        ((if st.holds then q.hold else q).flagged 13) := by
      intro st hst
      rw [h.exec_status_taken hm hx hs hp hb hj hst]
      refine congrArg _ (State.takeStatus_stray (fun e he hpe ha => ?_) st)
      obtain ⟨⟨p, x', y', die, hpr⟩, hn⟩ := Entry.awaitsStatus_iff.mp ha
      exact (hstray e he hpe).elim (fun hne => hne hn) fun hne => hne p x' y' die hpr
    refine ⟨fun hr => ?_, fun hr => ?_⟩
    · exact hr.elim (stray .ok) (stray .misprint)
    · exact hr.elim (stray .headFault) (stray .inkOut)

end Sys2Proof.Machine
end

section
/-! SUPPORT. The ledger: the tally unit, the report queue and the pieces of the track table. `LedgerFrame` holds of whatever
leaves all three alone, and `KeptByLedger P` lists what else a property of the ledger has to be kept by: retirement, opens,
tray closes, and the issue and the answer of records. -/

namespace Sys2Proof.Machine

/-! ### What leaves the ledger alone -/

/-- The tally unit, the report queue and the pieces of the table stand, and STANDBY is not entered. -/
structure LedgerFrame (s t : State) : Prop where
  tally   : t.tally = s.tally
  report  : t.report = s.report
  pieces  : t.pieces = s.pieces
  standby : t.mode = .standby → s.mode = .standby

theorem LedgerFrame.refl (s : State) : LedgerFrame s s := ⟨rfl, rfl, rfl, id⟩

theorem LedgerFrame.trans {s t u : State} (h : LedgerFrame s t) (k : LedgerFrame t u) : LedgerFrame s u :=
  ⟨k.tally.trans h.tally, k.report.trans h.report, k.pieces.trans h.pieces, fun x => h.standby (k.standby x)⟩

/-- Tally unit, report queue, entries and mode stand. -/
theorem LedgerFrame.of_same {s t : State} (ht : t.tally = s.tally) (hr : t.report = s.report)
    (he : t.entries = s.entries) (hm : t.mode = s.mode) : LedgerFrame s t :=
  ⟨ht, hr, congrArg (List.map Entry.piece) he, fun x => hm ▸ x⟩

theorem InspectFrame.ledger {s t : State} (h : InspectFrame s t) : LedgerFrame s t :=
  ⟨h.tally, h.report, h.pieces, fun x => h.mode ▸ x⟩

/-- Answered reads and print status words leave tally unit and report queue alone. -/
theorem ledger_keptByChanges (s : State) : KeptByChanges fun t => t.tally = s.tally ∧ t.report = s.report where
  raise _ _ h := h
  parsers _ _ h := h
  zones _ _ h := h
  cancel _ _ h := h
  modify _ _ _ _ h := h
  finish _ _ h := h

theorem AnswerFrame.ledger {s t : State} (h : AnswerFrame s t) (ht : t.tally = s.tally ∧ t.report = s.report) :
    LedgerFrame s t :=
  ⟨ht.1, ht.2, h.pieces, fun x => h.mode ▸ x⟩

theorem State.takeStatusWrite_ledger (s : State) (printer : Option Nat) (base : Nat) (r : Request) :
    LedgerFrame s (s.takeStatusWrite printer base r) :=
  (s.takeStatusWrite_answer printer base r).ledger
    ((ledger_keptByChanges s).takeStatusWrite printer base r ⟨rfl, rfl⟩)

theorem State.takeDispatchRead_ledger (gate : Option Nat) (base : Nat) (r : Request) (q : State × FillPlan) :
    LedgerFrame q.1 (State.takeDispatchRead gate base r q).1 :=
  (State.takeDispatchRead_answer gate base r q).ledger
    ((ledger_keptByChanges q.1).takeDispatchRead gate base r q ⟨rfl, rfl⟩)

theorem State.takePrintRead_ledger (printer : Option Nat) (base : Nat) (r : Request) (q : State × FillPlan) :
    LedgerFrame q.1 (State.takePrintRead printer base r q).1 :=
  (State.takePrintRead_answer printer base r q).ledger
    ((ledger_keptByChanges q.1).takePrintRead printer base r q ⟨rfl, rfl⟩)

theorem State.raise_ledger (s : State) (f : Flag) : LedgerFrame s (s.raise f) := .of_same rfl rfl rfl rfl

theorem State.refuse_ledger (s : State) (r : RefusalReason) : LedgerFrame s (s.refuse r) :=
  .of_same (by simp) (by simp) (by simp) (by simp)

theorem State.stage_ledger (s : State) (f : Settings → Settings) : LedgerFrame s (s.stage f) := by
  unfold State.stage
  simp only []
  split <;> exact .of_same rfl rfl rfl rfl

theorem State.generationAtOpen_ledger (s : State) : LedgerFrame s s.generationAtOpen :=
  .of_same (by simp) (by simp) (by simp) (by simp)

theorem State.ageOlder_ledger (s : State) (l : List Nat) : LedgerFrame s (s.ageOlder l) :=
  ⟨rfl, rfl, s.ageOlder_pieces l, id⟩

theorem State.directRun_ledger (s : State) : LedgerFrame s s.directRun := by
  unfold State.directRun
  split
  · exact .refl s
  · exact ⟨rfl, rfl, rfl, fun x => nomatch x⟩
  · split
    · exact ⟨rfl, rfl, rfl, fun x => nomatch x⟩
    · exact .of_same rfl rfl rfl rfl

theorem State.takeMemoryMap_ledger (s : State) (m : MemoryMapRecord) : LedgerFrame s (s.takeMemoryMap m) := by
  unfold State.takeMemoryMap
  repeat' split
  all_goals first | exact s.refuse_ledger _ | exact .of_same rfl rfl rfl rfl

theorem State.takeSourceTable_ledger (s : State) (m : SourceTableRecord) : LedgerFrame s (s.takeSourceTable m) := by
  unfold State.takeSourceTable
  repeat' split
  all_goals first | exact s.refuse_ledger _ | exact .of_same rfl rfl rfl rfl

theorem State.takeTraySet_ledger (s : State) (m : TraySetRecord) : LedgerFrame s (s.takeTraySet m) := by
  unfold State.takeTraySet
  repeat' split
  all_goals first | exact s.refuse_ledger _ | exact .of_same rfl rfl rfl rfl

theorem State.takeCorrection_ledger (s : State) (m : CorrectionRecord) : LedgerFrame s (s.takeCorrection m) := by
  unfold State.takeCorrection
  split
  · exact s.stage_ledger _
  · exact s.refuse_ledger _

theorem State.takeClassTest_ledger (s : State) (m : ClassTestRecord) : LedgerFrame s (s.takeClassTest m) := by
  unfold State.takeClassTest
  split
  · exact s.stage_ledger _
  · exact s.refuse_ledger _

theorem State.takeGeometry_ledger (s : State) (m : GeometryRecord) : LedgerFrame s (s.takeGeometry m) := by
  unfold State.takeGeometry
  split
  · exact s.stage_ledger _
  · exact s.refuse_ledger _

theorem State.takeDecision_ledger (s : State) (m : DecisionRecord) : LedgerFrame s (s.takeDecision m) := by
  unfold State.takeDecision
  split
  · exact s.stage_ledger _
  · exact s.refuse_ledger _

/-! ### What touches the ledger -/

/-- What a property of the ledger has to be kept by, for the track table and the run modes to keep it. -/
structure KeptByTable (P : State → Prop) : Prop where
  same   : ∀ s t, LedgerFrame s t → P s → P t
  retire : ∀ s c p, P s → P (s.retire c p)
  opened : ∀ (s : State) (e : Entry), s.mode ≠ .standby → e.piece ∉ s.pieces → P s →
             P ({ s with entries := s.entries ++ [e] } : State).countOpened
  counts : ∀ s p, P s → P (s.countUninspected p)
  close  : ∀ s r, P s → P (s.requestClose r)
  rest   : ∀ s, s.entries = [] → P s → P s.enterStandby

/-- What it has to be kept by besides, for every block to keep it. -/
structure KeptByLedger (P : State → Prop) : Prop extends KeptByTable P where
  restart  : ∀ s, s.mode = .standby → P s → P s.restarted
  settle   : ∀ s, P s → P s.settlePending
  join     : ∀ s, P s → P s.joinTrayRecord
  injected : ∀ s, P s → P s.issueInjected
  answered : ∀ s tag st, P s → P (s.recordAnswered tag st)
  reset    : ∀ (s : State) straps, P { State.resetWith straps with pending := s.pending }

namespace KeptByTable

variable {P : State → Prop} {s : State}

theorem drainEndIfDue (k : KeptByTable P) (h : P s) : P s.drainEndIfDue := by
  unfold State.drainEndIfDue
  split
  · rename_i hd
    exact k.rest _ (by simp [hd.2]) (k.close s .drain h)
  · exact h

theorem directDrain (k : KeptByTable P) (h : P s) : P s.directDrain := by
  unfold State.directDrain
  split
  · exact k.drainEndIfDue (k.same s _ ⟨rfl, rfl, rfl, fun x => nomatch x⟩ h)
  · exact k.same s _ (s.refuse_ledger _) h

theorem directStby (k : KeptByTable P) (h : P s) : P s.directStby := by
  unfold State.directStby
  split
  · exact h
  · have aborted := foldl_keeps (f := State.abortPiece) (fun t p => k.retire t .aborted p) (s.entries.map Entry.piece) h
    exact k.rest _ (by simp [State.abortAll_entries]) (k.close _ .abort aborted)

theorem forceOut (k : KeptByTable P) (h : P s) : P s.forceOut := by
  unfold State.forceOut
  split
  · exact h
  · split
    · exact k.same _ _ (State.raise_ledger _ _) (k.retire s _ _ h)
    · exact h

/-- R73: an open, of a piece that has no entry. -/
theorem openEntry (k : KeptByTable P) {p : Nat} (hm : s.mode ≠ .standby) (hn : s.entry? p = none) (h : P s) :
    P (s.openEntry p) := by
  have frame := s.forceOut.generationAtOpen_ledger
  refine k.opened _ (Entry.fresh p _) (fun hs => hm (s.forceOut_mode ▸ frame.standby hs)) (fun hp => ?_)
    (k.same _ _ frame (k.forceOut h))
  obtain ⟨e, he, hep⟩ := List.mem_map.mp (s.forceOut_shrink.pieces.subset (frame.pieces ▸ hp))
  exact State.entry?_none hn e he hep

theorem keptByInspection (k : KeptByTable P) : KeptByInspection P where
  inspect s t f := k.same s t f.ledger
  opens _ _ hm hn := k.openEntry (by rw [hm]; decide) hn
  counts := k.counts

theorem keptByExits (k : KeptByTable P) : KeptByExits P where
  raise s f := k.same s _ (s.raise_ledger f)
  take s p st jam := k.same s _ ((s.modifyEntry_answer p (Entry.takeExit_piece st jam)).ledger ⟨rfl, rfl⟩)
  retire := k.retire
  age s l := k.same s _ (s.ageOlder_ledger l)
  drainEnd _ := k.drainEndIfDue

theorem offerImage (k : KeptByTable P) (sources : Option SourceTable) (sd : Side) (base : Nat) (r : Request) (h : P s) :
    P (s.offerImage sources sd base r) := by
  unfold State.offerImage
  split
  · exact k.keptByInspection.takeImageWrite sd base r h
  · exact h

end KeptByTable

/-- Every block keeps a property of the ledger that the operations on the ledger keep. -/
theorem KeptByLedger.kept {P : State → Prop} (k : KeptByLedger P) : Kept P where
  pending s _ := k.same s _ (.of_same rfl rfl rfl rfl)
  path s _ := k.same s _ (.of_same rfl rfl rfl rfl)
  status s _ := k.same s _ (.of_same rfl rfl rfl rfl)
  suspend s := k.same s _ (.of_same rfl rfl rfl rfl)
  resume s := k.same s _ (.of_same rfl rfl rfl rfl)
  release s := k.same s _ (.of_same rfl rfl rfl rfl)
  shadows s _ := k.same s _ (.of_same rfl rfl rfl rfl)
  lanes s _ := k.same s _ (.of_same rfl rfl rfl rfl)
  alarm s _ := k.same s _ (.of_same rfl rfl rfl rfl)
  map s m := k.same s _ (s.takeMemoryMap_ledger m)
  sources s m := k.same s _ (s.takeSourceTable_ledger m)
  correction s m := k.same s _ (s.takeCorrection_ledger m)
  classTest s m := k.same s _ (s.takeClassTest_ledger m)
  geometry s m := k.same s _ (s.takeGeometry_ledger m)
  decision s m := k.same s _ (s.takeDecision_ledger m)
  traySet s m := k.same s _ (s.takeTraySet_ledger m)
  run s := k.same s _ s.directRun_ledger
  drain _ := k.directDrain
  stby _ := k.directStby
  restart s h := by
    unfold State.directRestart
    split
    · exact k.restart s ‹_› h
    · exact k.same s _ (s.refuse_ledger _) h
  tclose s := k.close s .tclose
  drainEnd _ := k.drainEndIfDue
  settle := k.settle
  join := k.join
  image _ src sd base r := k.offerImage src sd base r
  exit _ gate base r := k.keptByExits.takeExitWrite gate base r
  print s printer base r := k.same s _ (s.takeStatusWrite_ledger printer base r)
  dispatch gate base r q := k.same _ _ (State.takeDispatchRead_ledger gate base r q)
  printRead printer base r q := k.same _ _ (State.takePrintRead_ledger printer base r q)
  injected := k.injected
  answered := k.answered
  reset s straps _ := k.reset s straps

end Sys2Proof.Machine
end

section
/-! SUPPORT. The issue and the answer of a record, case by case (R136, R140, R141, R182). -/

namespace Sys2Proof.Machine

/-- R182: the item of the issued list that an injected write is. -/
def Issued.ofRecord (tag : Nat) : Issued :=
  { lane := .rpt, source := 15, tag := BitVec.ofNat 8 tag, kind := .write, plan := [], link := .injected true }

/-- R140, R182: `t` is `s` with the record `c`, the oldest WAITING one, sent as an injected write under `tag`. -/
structure State.SendsRecord (s t : State) (tag : Nat) (c : Record) (older younger : List ReportEntry) : Prop where
  free   : freeTag s.path.issued = some tag
  queue  : s.report.queue = older ++ { record := c, state := .waiting } :: younger
  oldest : ∀ e ∈ older, e.state ≠ .waiting
  report : t.report = { s.report with queue := older ++ { record := c, state := .issued tag } :: younger }
  tally  : t.tally = s.tally.recordIssued c
  issued : t.path.issued = s.path.issued ++ [Issued.ofRecord tag]

theorem State.spendFree_tally (s : State) : s.spendFree.tally = s.tally := by
  unfold State.spendFree
  split <;> rfl

theorem State.spendFree_report (s : State) : s.spendFree.report = s.report := by
  unfold State.spendFree
  split <;> rfl

theorem State.spendFree_path (s : State) : s.spendFree.path = s.path := by
  unfold State.spendFree
  split <;> rfl

theorem State.send_issued (s : State) (r : Request) (i : Issued) : (s.send r i).path.issued = s.path.issued ++ [i] := rfl

theorem State.charge_issued (s : State) (l : Lane) : (s.charge l).path.issued = s.path.issued := rfl

/-- R140, R179: nothing is issued, or the oldest WAITING record is. -/
theorem State.issueInjected_cases (s : State) :
    s.issueInjected = s ∨ ∃ tag c older younger, s.SendsRecord s.issueInjected tag c older younger := by
  unfold State.issueInjected
  split
  · exact .inl rfl
  · rename_i tag hfree
    split
    · exact .inl rfl
    · rename_i q hq
      obtain ⟨older, younger, hqueue, hleft, hold⟩ := issueOldest_spec (c := q.1) (l' := q.2) hq
      refine .inr ⟨tag, q.1, older, younger, hfree, hqueue, hold, ?_, ?_, ?_⟩
      · simp [State.spendFree_report, hleft]
      · simp [State.spendFree_tally]
      · simp [State.send_issued, State.charge_issued, State.spendFree_path, Issued.ofRecord]

/-- R136: what the answer to a record does to the banks. -/
def State.bankFollows (c : Record) (s : State) : State :=
  match c with
  | .tray _ => s.releaseBank
  | .piece _ => s

@[simp] theorem State.bankFollows_tray (t : TrayRecord) (s : State) : s.bankFollows (.tray t) = s.releaseBank := rfl

@[simp] theorem State.bankFollows_piece (p : PieceRecord) (s : State) : s.bankFollows (.piece p) = s := rfl

/-- R141: the state once an answered record has left the report queue. -/
def State.recordGone (queue : List ReportEntry) (st : Status) (s : State) : State :=
  ({ s with report := { s.report with queue := queue } } : State).raiseIf (decide (st = .err)) .reportFault

/-- R136, R139, R141: the answer to a record of the report queue. -/
theorem State.recordAnswered_eq {s : State} {tag : Nat} {c : Record} {queue : List ReportEntry}
    (h : takeIssuedRecord tag s.report.queue = some (c, queue)) (st : Status) :
    s.recordAnswered tag st = ((s.recordGone queue st).bankFollows c).joinTrayRecord := by
  rw [State.recordAnswered, h]
  cases c <;> rfl

theorem State.recordAnswered_none {s : State} {tag : Nat} (h : takeIssuedRecord tag s.report.queue = none)
    (st : Status) : s.recordAnswered tag st = s := by
  rw [State.recordAnswered, h]

/-- R141: no entry is linked by the tag, or the one that is leaves. -/
theorem State.recordAnswered_cases (s : State) (tag : Nat) (st : Status) :
    s.recordAnswered tag st = s ∨ ∃ c older younger,
      s.report.queue = older ++ { record := c, state := .issued tag } :: younger ∧
        s.recordAnswered tag st = ((s.recordGone (older ++ younger) st).bankFollows c).joinTrayRecord := by
  cases h : takeIssuedRecord tag s.report.queue with
  | none => exact .inl (State.recordAnswered_none h st)
  | some q =>
    obtain ⟨c, queue⟩ := q
    obtain ⟨older, younger, hqueue, rfl, -⟩ := takeIssuedRecord_spec h
    exact .inr ⟨c, older, younger, hqueue, State.recordAnswered_eq h st⟩

theorem State.bankFollows_entries (c : Record) (s : State) : (s.bankFollows c).entries = s.entries := by
  cases c <;> simp [State.releaseBank]

theorem State.bankFollows_mode (c : Record) (s : State) : (s.bankFollows c).mode = s.mode := by
  cases c <;> simp [State.releaseBank]

theorem State.recordAnswered_entries (s : State) (tag : Nat) (st : Status) :
    (s.recordAnswered tag st).entries = s.entries := by
  obtain he | ⟨c, older, younger, -, he⟩ := s.recordAnswered_cases tag st
  · rw [he]
  · simp [he, State.bankFollows_entries, State.recordGone]

theorem State.recordAnswered_mode (s : State) (tag : Nat) (st : Status) : (s.recordAnswered tag st).mode = s.mode := by
  obtain he | ⟨c, older, younger, -, he⟩ := s.recordAnswered_cases tag st
  · rw [he]
  · simp [he, State.bankFollows_mode, State.recordGone]

/-! ### Tray closes leave totals and opened counter (R128, R129) -/

theorem CloseFrame.trans {s t u : State} (h : CloseFrame s t) (k : CloseFrame t u) : CloseFrame s u :=
  ⟨k.totals.trans h.totals, k.opened.trans h.opened, k.seq.trans h.seq⟩

theorem State.joinTrayRecord_frame (s : State) : CloseFrame s s.joinTrayRecord :=
  ⟨by simp, by simp, s.joinTrayRecord_seq⟩

theorem State.settlePending_frame (s : State) : CloseFrame s s.settlePending := by
  unfold State.settlePending
  split
  · exact .trans (t := { s with tally := { s.tally with pending := none } }) ⟨rfl, rfl, rfl⟩
      (State.executeClose_frame _ _ _)
  · exact .refl s

theorem State.bankFollows_frame (c : Record) (s : State) : CloseFrame s (s.bankFollows c) := by
  cases c with
  | piece p => exact .refl s
  | tray t =>
    exact .trans (t := { s with tally := { s.tally with other := s.tally.other.released } }) ⟨rfl, rfl, rfl⟩
      (State.settlePending_frame _)

theorem State.recordAnswered_frame (s : State) (tag : Nat) (st : Status) : CloseFrame s (s.recordAnswered tag st) := by
  obtain he | ⟨c, older, younger, -, he⟩ := s.recordAnswered_cases tag st
  · rw [he]
    exact .refl s
  · have gone : CloseFrame s (s.recordGone (older ++ younger) st) :=
      ⟨by simp [State.recordGone], by simp [State.recordGone], by simp [State.recordGone]⟩
    rw [he]
    exact (gone.trans (State.bankFollows_frame c _)).trans (State.joinTrayRecord_frame _)

end Sys2Proof.Machine
end


section
/-! PROOF. O9: the opened counter is the disposition totals and the entries together, while nothing has saturated (R126,
R128, R129). -/

namespace Sys2Proof.Machine

/-! ### The eleven disposition totals -/

/-- A sum after one of its terms has changed. -/
theorem sum_set_add_getElem (l : List Nat) (i x : Nat) (h : i < l.length) : (l.set i x).sum + l[i] = l.sum + x := by
  induction l generalizing i with
  | nil => exact absurd h (Nat.not_lt_zero i)
  | cons y ys ih =>
    cases i with
    | zero => simp only [List.set_cons_zero, List.sum_cons, List.getElem_cons_zero]; omega
    | succ i =>
      have := ih i (Nat.lt_of_succ_lt_succ h)
      simp only [List.set_cons_succ, List.sum_cons, List.getElem_cons_succ]
      omega

theorem lt_of_satInc_lt {n : Nat} (h : satInc n < counterMax) : n < counterMax := by
  unfold satInc at h
  split at h <;> omega

/-- R129: UNINSPECTED, the twelfth counter, is no disposition. -/
theorem Disposition.code_lt (d : Disposition) : d.code.val < 11 := by cases d <;> decide

namespace TallyUnit

variable {t : TallyUnit} {k : Fin 12}

/-- The disposition totals of a state that has counted one. -/
theorem take_totals_count (t : TallyUnit) (k : Fin 12) :
    (t.count k).totals.toList.take 11 = (t.totals.toList.take 11).set k (satInc t.totals[k]) := by
  simp only [TallyUnit.count, Vector.toList_set, List.take_set]

theorem getElem_take_totals (t : TallyUnit) (hk : k.val < (t.totals.toList.take 11).length) :
    (t.totals.toList.take 11)[k.val] = t.totals[k] := by
  simp

/-- R126, R129: a counted disposition adds one to the totals, and none was saturated before. -/
theorem count_disposition (hk : k.val < 11) (h : (t.count k).unsaturated) :
    t.unsaturated ∧ dispositionTotals (t.count k) = dispositionTotals t + 1 := by
  obtain ⟨hopened, htotals⟩ := h
  rw [take_totals_count] at htotals
  have hlen : k.val < (t.totals.toList.take 11).length := by simpa using hk
  have hlt : t.totals[k] < counterMax := lt_of_satInc_lt (htotals _ (List.mem_set hlen _))
  refine ⟨⟨hopened, fun n hn => ?_⟩, ?_⟩
  · obtain ⟨i, hi, rfl⟩ := List.getElem_of_mem hn
    by_cases hik : k.val = i
    · subst hik
      rwa [getElem_take_totals]
    · rw [← List.getElem_set_ne hik (by simpa using hi)]
      exact htotals _ (List.getElem_mem _)
  · have sum := sum_set_add_getElem _ k (satInc t.totals[k]) hlen
    rw [getElem_take_totals, satInc_of_lt hlt] at sum
    rw [dispositionTotals, take_totals_count, satInc_of_lt hlt, dispositionTotals]
    omega

/-- R85, R129: an uninspected piece is in no disposition total. -/
theorem take_totals_count_uninspected (t : TallyUnit) :
    (t.count uninspectedCode).totals.toList.take 11 = t.totals.toList.take 11 := by
  rw [take_totals_count]
  exact List.set_eq_of_length_le (by simp [uninspectedCode])

end TallyUnit

/-! ### The balance -/

/-- The law of the opened counter, with what of the table's laws it rests on (R71). -/
structure State.Balanced (s : State) : Prop where
  distinct : s.pieces.Nodup
  standby  : s.mode = .standby → s.entries = []
  law      : s.OpenedLaw

/-- R129: the law asks for the disposition totals, the opened counter and the number of entries alone. -/
theorem State.OpenedLaw.of_same {s t : State} (h : s.OpenedLaw)
    (ht : t.tally.totals.toList.take 11 = s.tally.totals.toList.take 11) (ho : t.tally.opened = s.tally.opened)
    (he : t.entries.length = s.entries.length) : t.OpenedLaw := by
  unfold State.OpenedLaw TallyUnit.unsaturated dispositionTotals at h ⊢
  rwa [ht, ho, he]

theorem CloseFrame.openedLaw {s t : State} (f : CloseFrame s t) (he : t.entries = s.entries) (h : s.OpenedLaw) :
    t.OpenedLaw :=
  h.of_same (by rw [f.totals]) f.opened (by rw [he])

namespace State.Balanced

variable {s t : State}

theorem of_ledger (h : s.Balanced) (f : LedgerFrame s t) : t.Balanced where
  distinct := f.pieces ▸ h.distinct
  standby hs := State.pieces_eq_nil.mp (f.pieces.trans (State.pieces_eq_nil.mpr (h.standby (f.standby hs))))
  law := h.law.of_same (by rw [f.tally]) (by rw [f.tally])
    (by rw [← State.length_pieces, ← State.length_pieces, f.pieces])

/-- R130 to R134: tray closes. -/
theorem of_close (h : s.Balanced) (f : CloseFrame s t) (he : t.entries = s.entries) (hm : t.mode = s.mode) :
    t.Balanced where
  distinct := by rw [State.pieces, he]; exact h.distinct
  standby hs := he.trans (h.standby (hm ▸ hs))
  law := f.openedLaw he h.law

/-- R90, R129: a retirement takes an entry away and counts its disposition. -/
theorem retire (h : s.Balanced) (c : RetireCause) (p : Nat) : (s.retire c p).Balanced := by
  have pieces := (s.retire_shrink c p).pieces
  refine ⟨h.distinct.sublist pieces, fun hs => ?_, ?_⟩
  · rw [State.retire_entries, h.standby (s.retire_mode c p ▸ hs), List.filter_nil]
  · cases hp : s.entry? p with
    | none =>
      rw [State.retire, hp]
      exact h.law
    | some e =>
      obtain ⟨hmem, rfl⟩ := State.entry?_spec hp
      obtain ⟨older, younger, hl⟩ := List.append_of_mem hmem
      have place := State.placedAt_of_nodup hl h.distinct
      have dep := State.retire_departs hp c
      have totals : (s.retire c e.piece).tally.totals = (s.tally.count (e.dispositionFor c).code).totals := by
        rw [dep.totals, TallyUnit.count_eq_counted]
        rfl
      have entries : (s.retire c e.piece).entries.length + 1 = s.entries.length := by
        rw [State.retire_entries, place.removed, hl]
        simp only [List.length_append, List.length_cons]
        omega
      intro hu
      rw [TallyUnit.unsaturated, dep.opened, totals] at hu
      obtain ⟨hu, sum⟩ := TallyUnit.count_disposition (e.dispositionFor c).code_lt hu
      have sums : dispositionTotals (s.retire c e.piece).tally = dispositionTotals s.tally + 1 := by
        rw [← sum, dispositionTotals, totals, dispositionTotals]
      rw [dep.opened, h.law hu, sums]
      omega

/-- R73, R129: an open adds an entry and counts it. -/
theorem opened (h : s.Balanced) {e : Entry} (hm : s.mode ≠ .standby) (hp : e.piece ∉ s.pieces) :
    ({ s with entries := s.entries ++ [e] } : State).countOpened.Balanced where
  distinct := by
    have : (s.pieces ++ [e.piece]).Nodup :=
      List.nodup_append.mpr ⟨h.distinct, List.nodup_singleton _, fun a ha b hb hab =>
        hp (List.mem_singleton.mp hb ▸ hab ▸ ha)⟩
    simpa [State.pieces, State.countOpened] using this
  standby hs := absurd hs hm
  law := by
    rintro ⟨hopened, htotals⟩
    have hlt : s.tally.opened < counterMax := lt_of_satInc_lt hopened
    have balance := h.law ⟨hlt, htotals⟩
    have opened : satInc s.tally.opened = dispositionTotals s.tally + (s.entries ++ [e]).length := by
      rw [satInc_of_lt hlt, balance, List.length_append, List.length_singleton, Nat.add_assoc]
    exact opened

/-- R83, R84: STANDBY is entered on an empty table. -/
theorem enterStandby (h : s.Balanced) (he : s.entries = []) : s.enterStandby.Balanced where
  distinct := by simpa [State.pieces] using h.distinct
  standby _ := by simpa using he
  law := h.law.of_same (by simp) (by simp) (by simp)

theorem countUninspected (h : s.Balanced) (p : Nat) : (s.countUninspected p).Balanced := by
  unfold State.countUninspected
  split
  · exact h
  · exact ⟨h.distinct, h.standby, h.law.of_same s.tally.take_totals_count_uninspected rfl rfl⟩

/-- R140: the issue of a record leaves the counters. -/
theorem issueInjected (h : s.Balanced) : s.issueInjected.Balanced := by
  have frame := s.issueInjected_answer
  have tally : s.issueInjected.tally.totals = s.tally.totals ∧ s.issueInjected.tally.opened = s.tally.opened := by
    obtain he | ⟨tag, c, older, younger, sent⟩ := s.issueInjected_cases
    · rw [he]
      exact ⟨rfl, rfl⟩
    · rw [sent.tally]
      cases c <;> exact ⟨rfl, rfl⟩
  refine ⟨frame.pieces ▸ h.distinct, fun hs => ?_, h.law.of_same (by rw [tally.1]) tally.2 ?_⟩
  · exact State.pieces_eq_nil.mp (frame.pieces.trans (State.pieces_eq_nil.mpr (h.standby (frame.mode ▸ hs))))
  · rw [← State.length_pieces, ← State.length_pieces, frame.pieces]

/-- A state with no entries and no counts. -/
theorem of_zero (he : t.entries = []) (ht : t.tally = TallyUnit.reset) : t.Balanced where
  distinct := by rw [State.pieces, he]; exact .nil
  standby _ := he
  law _ := by rw [ht, he]; rfl

end State.Balanced

theorem balanced_keptByLedger : KeptByLedger State.Balanced where
  same _ _ f h := h.of_ledger f
  retire _ c p h := h.retire c p
  opened _ _ hm hp h := h.opened hm hp
  counts _ p h := h.countUninspected p
  close s r h := h.of_close (s.requestClose_frame r) (by simp) (by simp)
  rest _ he h := h.enterStandby he
  restart _ hs h := .of_zero (h.standby hs) rfl
  settle s h := h.of_close s.settlePending_frame (by simp) (by simp)
  join s h := h.of_close s.joinTrayRecord_frame (by simp) (by simp)
  injected _ h := h.issueInjected
  answered s tag st h := h.of_close (s.recordAnswered_frame tag st) (s.recordAnswered_entries tag st)
    (s.recordAnswered_mode tag st)
  reset _ _ := .of_zero rfl rfl

/-- Settles O9: the operations on the ledger keep the balance, so every step does. -/
theorem stepKeepsOpenedLaw : Obligations.StepKeepsOpenedLaw := fun _ _ ht h e =>
  (balanced_keptByLedger.kept.step ⟨ht.distinct, ht.standby, h⟩ e).law

end Sys2Proof.Machine
end

section
/-! SUPPORT. Tray records in the report queue, and the two events that wait for room and for a FREE bank (R134, R136,
R139). -/

namespace Sys2Proof.Machine

/-! ### Tray records in the queue -/

/-- The tray records of the report queue. -/
def Report.trays (r : Report) : List ReportEntry := r.queue.filter ReportEntry.isTray

@[simp] theorem ReportEntry.isTray_tray (t : TrayRecord) (st : ReportState) :
    ReportEntry.isTray { record := .tray t, state := st } = true := rfl

@[simp] theorem ReportEntry.isTray_piece (p : PieceRecord) (st : ReportState) :
    ReportEntry.isTray { record := .piece p, state := st } = false := rfl

/-- R125: where one tray record stands among at most one, it stands alone. -/
theorem noTray_of_filter_eq_singleton {older younger : List ReportEntry} {t : TrayRecord} {st : ReportState}
    {e : ReportEntry} (h : (older ++ { record := .tray t, state := st } :: younger).filter ReportEntry.isTray = [e]) :
    older.filter ReportEntry.isTray = [] ∧ younger.filter ReportEntry.isTray = [] := by
  have := congrArg List.length h
  simp only [List.filter_append, List.length_append,
    List.filter_cons_of_pos (ReportEntry.isTray_tray t st), List.length_cons, List.length_nil] at this
  exact ⟨List.length_eq_zero_iff.mp (by omega), List.length_eq_zero_iff.mp (by omega)⟩

theorem Report.hasTray_eq_any (r : Report) : r.hasTray = r.queue.any ReportEntry.isTray := rfl

theorem State.noTrayQueued_iff {s : State} : s.NoTrayQueued ↔ s.report.trays = [] := by
  simp [State.NoTrayQueued, Report.trays, List.filter_eq_nil_iff]

theorem State.hasTray_eq_false_iff {s : State} : s.report.hasTray = false ↔ s.NoTrayQueued := by
  simp [Report.hasTray_eq_any, State.NoTrayQueued]

/-! ### The tray record that waits outside the queue (R139) -/

theorem State.joinTrayRecord_joined {s : State} {c : Counts} {d : SealData} (ho : s.tally.other = .sealed c d)
    (hl : s.report.queue.length < 8) (ht : s.NoTrayQueued) :
    s.joinTrayRecord = { s with report := { s.report with
      queue := s.report.queue ++ [{ record := .tray { data := d, counts := c }, state := .waiting }] } } := by
  unfold State.joinTrayRecord
  simp only [ho]
  exact if_pos ⟨hl, State.hasTray_of_noTrayQueued ht⟩

theorem State.joinTrayRecord_eq_self {s : State}
    (h : (∀ c d, s.tally.other ≠ .sealed c d) ∨ 8 ≤ s.report.queue.length ∨ ¬ s.NoTrayQueued) :
    s.joinTrayRecord = s := by
  cases ho : s.tally.other with
  | free => simp only [State.joinTrayRecord, ho]
  | writing c d => simp only [State.joinTrayRecord, ho]
  | sealed c d =>
    have blocked := h.resolve_left fun hn => hn c d ho
    simp only [State.joinTrayRecord, ho]
    refine if_neg fun hj => ?_
    exact blocked.elim (fun hl => absurd hj.1 (Nat.not_lt.mpr hl)) fun hn => hn (State.hasTray_eq_false_iff.mp hj.2)

/-! ### The pending close (R134, R136) -/

theorem State.settlePending_eq_self {s : State} (h : s.tally.other ≠ .free ∨ s.tally.pending = none) :
    s.settlePending = s := by
  unfold State.settlePending
  split
  · rename_i ho hp
    rcases h with h | h
    · exact absurd ho h
    · rw [hp] at h
      cases h
  · rfl

theorem State.settlePending_executes {s : State} {p : Pending} (ho : s.tally.other = .free)
    (hp : s.tally.pending = some p) :
    s.settlePending =
      ({ s with tally := { s.tally with pending := none } } : State).executeClose p.reason p.sealMark := by
  simp only [State.settlePending, ho, hp]

/-- R136: the bank whose record is answered becomes FREE. -/
theorem State.releaseBank_writing {s : State} {c : Counts} {d : SealData} (ho : s.tally.other = .writing c d) :
    s.releaseBank = ({ s with tally := { s.tally with other := .free } } : State).settlePending := by
  rw [State.releaseBank, ho]
  rfl

end Sys2Proof.Machine
end

section
/-! PROOF. O10: the report queue and the banks agree (R125, R134, R136 to R141). -/

namespace Sys2Proof.Machine

/-! ### ISSUED entries stand first (R137) -/

/-- The order of the queue, entry by entry. -/
theorem issuedFirst_iff {l : List ReportEntry} :
    issuedFirst l = true ↔ l.Pairwise fun e q => q.isIssued = true → e.isIssued = true := by
  induction l with
  | nil => simp [issuedFirst]
  | cons e es ih =>
    rw [issuedFirst, List.pairwise_cons]
    by_cases he : e.isIssued = true
    · simp [he, ih]
    · simp only [he, if_false, Bool.false_eq_true, imp_false, List.all_eq_true, Bool.not_eq_true']
      refine ⟨fun h => ⟨fun q hq => by simp [h q hq], ?_⟩, fun h q hq => by simpa using h.1 q hq⟩
      exact List.pairwise_of_forall_mem_list fun _ _ q hq hi => absurd hi (by simp [h q hq])

theorem ReportEntry.isIssued_iff {e : ReportEntry} : e.isIssued = true ↔ e.state ≠ .waiting := decide_eq_true_iff

/-- A record that joins the queue WAITING stands behind every other. -/
theorem issuedFirst_append_waiting {l : List ReportEntry} (h : issuedFirst l = true) (c : Record) :
    issuedFirst (l ++ [{ record := c, state := .waiting }]) = true := by
  rw [issuedFirst_iff] at h ⊢
  exact List.pairwise_append.mpr ⟨h, List.pairwise_singleton _ _, fun _ _ q hq hi => by
    rw [List.mem_singleton.mp hq] at hi
    exact absurd rfl (ReportEntry.isIssued_iff.mp hi)⟩

/-- Entries that leave the queue leave the others in order. -/
theorem issuedFirst_sublist {l l' : List ReportEntry} (h : issuedFirst l = true) (hs : l'.Sublist l) :
    issuedFirst l' = true :=
  issuedFirst_iff.mpr ((issuedFirst_iff.mp h).sublist hs)

/-- R137: behind the oldest WAITING entry all are WAITING. -/
theorem issuedFirst_younger {older younger : List ReportEntry} {c : Record}
    (h : issuedFirst (older ++ { record := c, state := .waiting } :: younger) = true) :
    ∀ e ∈ younger, e.state = .waiting := by
  intro e he
  have behind := (List.pairwise_cons.mp (List.pairwise_append.mp (issuedFirst_iff.mp h)).2.1).1 e he
  by_contra hw
  exact ReportEntry.isIssued_iff.mp (behind (ReportEntry.isIssued_iff.mpr hw)) rfl

/-- R140: the issue of the oldest WAITING entry keeps the order. -/
theorem issuedFirst_issue {older younger : List ReportEntry} {c : Record} (tag : Nat)
    (h : issuedFirst (older ++ { record := c, state := .waiting } :: younger) = true)
    (ho : ∀ e ∈ older, e.state ≠ .waiting) :
    issuedFirst (older ++ { record := c, state := .issued tag } :: younger) = true := by
  have waiting := issuedFirst_younger h
  rw [issuedFirst_iff, List.pairwise_append, List.pairwise_cons] at h ⊢
  obtain ⟨hold, ⟨-, hyoung⟩, -⟩ := h
  exact ⟨hold, ⟨fun _ _ _ => ReportEntry.isIssued_iff.mpr (by simp), hyoung⟩,
    fun e he _ _ _ => ReportEntry.isIssued_iff.mpr (ho e he)⟩

/-! ### What the law asks of each state of the other bank -/

theorem State.trayRecordLaw_free {s : State} (ho : s.tally.other = .free) :
    s.TrayRecordLaw ↔ s.report.trays = [] := by
  simp only [State.TrayRecordLaw, ho, Report.trays]

theorem State.trayRecordLaw_sealed {s : State} {c : Counts} {d : SealData} (ho : s.tally.other = .sealed c d) :
    s.TrayRecordLaw ↔ s.report.trays = [{ record := .tray { data := d, counts := c }, state := .waiting }] ∨
      (s.report.trays = [] ∧ s.report.queue.length = 8) := by
  simp only [State.TrayRecordLaw, ho, Report.trays]

theorem State.trayRecordLaw_writing {s : State} {c : Counts} {d : SealData} (ho : s.tally.other = .writing c d) :
    s.TrayRecordLaw ↔
      ∃ tag, s.report.trays = [{ record := .tray { data := d, counts := c }, state := .issued tag }] := by
  simp only [State.TrayRecordLaw, ho, Report.trays]

/-- A change of the queue that leaves its tray records, and leaves it full where one waits outside. -/
theorem State.TrayRecordLaw.of_trays {s t : State} (h : s.TrayRecordLaw) (ho : t.tally.other = s.tally.other)
    (ht : t.report.trays = s.report.trays)
    (hl : s.report.queue.length = 8 → t.report.queue.length = 8) : t.TrayRecordLaw := by
  cases hs : s.tally.other with
  | free =>
    rw [State.trayRecordLaw_free hs] at h
    rw [State.trayRecordLaw_free (ho.trans hs), ht, h]
  | sealed c d =>
    rw [State.trayRecordLaw_sealed hs] at h
    rw [State.trayRecordLaw_sealed (ho.trans hs), ht]
    exact h.imp_right fun hw => ⟨hw.1, hl hw.2⟩
  | writing c d =>
    rw [State.trayRecordLaw_writing hs] at h
    rwa [State.trayRecordLaw_writing (ho.trans hs), ht]

/-- A tray record of the queue is that of the other bank: WAITING where it is SEALED, ISSUED where it is WRITING. -/
theorem State.TrayRecordLaw.of_mem {s : State} (h : s.TrayRecordLaw) {t : TrayRecord} {st : ReportState}
    (hm : ({ record := .tray t, state := st } : ReportEntry) ∈ s.report.queue) :
    (s.tally.other = .sealed t.counts t.data ∧ st = .waiting) ∨
      (s.tally.other = .writing t.counts t.data ∧ ∃ tag, st = .issued tag) := by
  have hmem : ({ record := .tray t, state := st } : ReportEntry) ∈ s.report.trays := List.mem_filter.mpr ⟨hm, rfl⟩
  cases ho : s.tally.other with
  | free =>
    rw [(State.trayRecordLaw_free ho).mp h] at hmem
    cases hmem
  | sealed c d =>
    rcases (State.trayRecordLaw_sealed ho).mp h with hq | ⟨hq, -⟩
    · rw [hq] at hmem
      cases List.mem_singleton.mp hmem
      exact .inl ⟨rfl, rfl⟩
    · rw [hq] at hmem
      cases hmem
  | writing c d =>
    obtain ⟨tag, hq⟩ := (State.trayRecordLaw_writing ho).mp h
    rw [hq] at hmem
    cases List.mem_singleton.mp hmem
    exact .inr ⟨rfl, tag, rfl⟩

namespace State.ReportLaw

variable {s t : State}

theorem of_same (h : s.ReportLaw) (ho : t.tally.other = s.tally.other) (hp : t.tally.pending = s.tally.pending)
    (hq : t.report.queue = s.report.queue) : t.ReportLaw where
  room := hq ▸ h.room
  order := hq ▸ h.order
  banks := h.banks.of_trays ho (by rw [Report.trays, hq, Report.trays]) (by rw [hq]; exact id)
  pending hn := ho ▸ h.pending (hp ▸ hn)

/-- R125: a FREE bank's record is not in the queue. -/
theorem noTrayQueued (h : s.ReportLaw) (ho : s.tally.other = .free) : s.NoTrayQueued :=
  State.noTrayQueued_iff.mpr ((State.trayRecordLaw_free ho).mp h.banks)

/-- R138: a piece record joins the queue, or is dropped. -/
theorem formPieceRecord (h : s.ReportLaw) (e : Entry) (d : Disposition) : (s.formPieceRecord e d).ReportLaw := by
  unfold State.formPieceRecord
  simp only []
  split
  · rename_i hl
    have room : s.report.queue.length < 8 := hl
    refine ⟨?_, issuedFirst_append_waiting h.order _, h.banks.of_trays rfl ?_ fun h8 => ?_, h.pending⟩
    · simpa using room
    · simp [Report.trays]
    · omega
  · exact h.of_same rfl rfl rfl

/-- R133: an executed close leaves the sealed bank's record in the queue, or outside it with the queue full. -/
theorem executeClose (room : s.report.queue.length ≤ 8) (order : issuedFirst s.report.queue = true)
    (ht : s.NoTrayQueued) (r : CloseReason) (m : SealMark) : (s.executeClose r m).ReportLaw := by
  have notray := State.noTrayQueued_iff.mp ht
  rw [State.executeClose_eq_trayClosed ht]
  by_cases hl : s.report.queue.length < 8
  · refine ⟨?_, ?_, (State.trayRecordLaw_sealed rfl).mpr (.inl ?_), fun _ => by simp [State.trayClosed]⟩
    · simp [State.trayClosed, hl]
    · simpa [State.trayClosed, hl] using issuedFirst_append_waiting order _
    · simp [State.trayClosed, hl, Report.trays, List.filter_append, show s.report.queue.filter ReportEntry.isTray = [] from notray]
  · refine ⟨?_, ?_, (State.trayRecordLaw_sealed rfl).mpr (.inr ⟨?_, ?_⟩), fun _ => by simp [State.trayClosed]⟩
    · simpa [State.trayClosed, hl] using room
    · simpa [State.trayClosed, hl] using order
    · simpa [State.trayClosed, hl, Report.trays] using notray
    · simp only [State.trayClosed, hl, if_false]
      omega

/-- R130: a close request executes, waits or merges. -/
theorem requestClose (h : s.ReportLaw) (r : CloseReason) : (s.requestClose r).ReportLaw := by
  by_cases ho : s.tally.other = .free
  · rw [State.requestClose_eq_executeClose ho]
    exact executeClose h.room h.order (h.noTrayQueued ho) r .none
  · rw [State.requestClose_eq_closeWaits ho]
    exact ⟨h.room, h.order, h.banks.of_trays rfl rfl id, fun _ => ho⟩

theorem limitCheck (h : s.ReportLaw) : s.limitCheck.ReportLaw := by
  unfold State.limitCheck
  split
  · exact h.requestClose .limit
  · exact h

/-- R90: a retirement. -/
theorem retire (h : s.ReportLaw) (c : RetireCause) (p : Nat) : (s.retire c p).ReportLaw := by
  unfold State.retire
  split
  · exact h
  · rename_i e _
    have counted : ((s.removeEntry p).count (e.dispositionFor c).code).ReportLaw := h.of_same rfl rfl rfl
    exact (counted.formPieceRecord _ _).limitCheck

theorem countUninspected (h : s.ReportLaw) (p : Nat) : (s.countUninspected p).ReportLaw := by
  unfold State.countUninspected
  split
  · exact h
  · exact h.of_same rfl rfl rfl

/-- R134: a pending close never finds the other bank FREE but at a release. -/
theorem settlePending_eq_self (h : s.ReportLaw) : s.settlePending = s := by
  refine State.settlePending_eq_self ?_
  by_cases hp : s.tally.pending = none
  · exact .inr hp
  · exact .inl (h.pending hp)

/-- R139: a tray record waits outside with the queue full alone. -/
theorem joinTrayRecord_eq_self (h : s.ReportLaw) : s.joinTrayRecord = s := by
  refine State.joinTrayRecord_eq_self ?_
  by_cases ho : ∃ c d, s.tally.other = .sealed c d
  · obtain ⟨c, d, ho⟩ := ho
    rcases (State.trayRecordLaw_sealed ho).mp h.banks with hq | ⟨-, hl⟩
    · exact .inr (.inr fun hn => by simp [State.noTrayQueued_iff.mp hn] at hq)
    · exact .inr (.inl hl.ge)
  · exact .inl fun c d hs => ho ⟨c, d, hs⟩

/-- R140: the issue of a record; the bank of a tray record goes from SEALED to WRITING. -/
theorem issueInjected (h : s.ReportLaw) : s.issueInjected.ReportLaw := by
  obtain he | ⟨tag, c, older, younger, sent⟩ := s.issueInjected_cases
  · rwa [he]
  have room : s.issueInjected.report.queue.length ≤ 8 := by
    have := h.room
    rw [sent.queue] at this
    simpa [sent.report] using this
  have order : issuedFirst s.issueInjected.report.queue = true := by
    rw [sent.report]
    exact issuedFirst_issue tag (sent.queue ▸ h.order) sent.oldest
  cases c with
  | piece p =>
    have tally : s.issueInjected.tally = s.tally := sent.tally
    refine ⟨room, order, h.banks.of_trays (by rw [tally]) ?_ ?_, by rw [tally]; exact h.pending⟩
    · simp [Report.trays, sent.report, sent.queue]
    · simp [sent.report, sent.queue]
  | tray t =>
    have queued : ({ record := .tray t, state := .waiting } : ReportEntry) ∈ s.report.queue := by simp [sent.queue]
    have ho : s.tally.other = .sealed t.counts t.data := by
      rcases h.banks.of_mem queued with ⟨ho, -⟩ | ⟨-, tag, hw⟩
      · exact ho
      · cases hw
    have written : s.issueInjected.tally.other = .writing t.counts t.data := by
      rw [sent.tally]
      simp only [TallyUnit.recordIssued, ho, OtherBank.issued]
    refine ⟨room, order, (State.trayRecordLaw_writing written).mpr ⟨tag, ?_⟩, fun _ => by simp [written]⟩
    have alone : s.report.trays = [{ record := .tray t, state := .waiting }] :=
      ((State.trayRecordLaw_sealed ho).mp h.banks).resolve_right fun hn => by simp [Report.trays, sent.queue] at hn
    rw [Report.trays, sent.queue] at alone
    obtain ⟨hold, hyoung⟩ := noTray_of_filter_eq_singleton alone
    rw [Report.trays, sent.report, List.filter_append, List.filter_cons_of_pos (ReportEntry.isTray_tray t _), hold, hyoung]
    rfl

/-! #### The answer to a record -/

/-- R139: the record that waits outside the queue joins it. -/
theorem joinTrayRecord {c : Counts} {d : SealData} (room : s.report.queue.length < 8)
    (order : issuedFirst s.report.queue = true) (ho : s.tally.other = .sealed c d) (hn : s.report.trays = []) :
    s.joinTrayRecord.ReportLaw := by
  have other : s.joinTrayRecord.tally.other = .sealed c d := by simp [ho]
  have queue : s.joinTrayRecord.report.queue =
      s.report.queue ++ [{ record := .tray { data := d, counts := c }, state := .waiting }] := by
    rw [State.joinTrayRecord_joined ho room (State.noTrayQueued_iff.mpr hn)]
  refine ⟨?_, ?_, (State.trayRecordLaw_sealed other).mpr (.inl ?_), fun _ => by simp [ho]⟩
  · rw [queue]
    simpa using room
  · rw [queue]
    exact issuedFirst_append_waiting order _
  · rw [Report.trays, queue, List.filter_append, show s.report.queue.filter ReportEntry.isTray = [] from hn]
    rfl

/-- R134: a FREE bank takes the pending close. -/
theorem settlePending (room : s.report.queue.length ≤ 8) (order : issuedFirst s.report.queue = true)
    (ht : s.NoTrayQueued) (ho : s.tally.other = .free) : s.settlePending.ReportLaw := by
  cases hp : s.tally.pending with
  | none =>
    rw [State.settlePending_eq_self (.inr hp)]
    exact ⟨room, order, (State.trayRecordLaw_free ho).mpr (State.noTrayQueued_iff.mp ht), fun hn => absurd hp hn⟩
  | some p =>
    rw [State.settlePending_executes ho hp]
    exact executeClose (s := { s with tally := { s.tally with pending := none } }) room order ht _ _

/-- R141: the record that has left the queue leaves the others in order, and room for one. -/
theorem recordGone {older younger : List ReportEntry} {e : ReportEntry} (h : s.ReportLaw)
    (hq : s.report.queue = older ++ e :: younger) (st : Status) :
    (s.recordGone (older ++ younger) st).report.queue.length < 8 ∧
      issuedFirst (s.recordGone (older ++ younger) st).report.queue = true := by
  have room := h.room
  have gone : (s.recordGone (older ++ younger) st).report.queue = older ++ younger := by simp [State.recordGone]
  rw [hq, List.length_append, List.length_cons] at room
  rw [gone]
  exact ⟨by rw [List.length_append]; omega,
    issuedFirst_sublist (hq ▸ h.order) ((List.sublist_cons_self _ _).append_left _)⟩

/-- R139, R141: a piece record leaves the queue, and the tray record that waits outside joins it. -/
theorem pieceAnswered {older younger : List ReportEntry} {p : PieceRecord} {tag : Nat} (h : s.ReportLaw)
    (hq : s.report.queue = older ++ { record := .piece p, state := .issued tag } :: younger) (st : Status) :
    (s.recordGone (older ++ younger) st).joinTrayRecord.ReportLaw := by
  obtain ⟨room, order⟩ := h.recordGone hq st
  have other : (s.recordGone (older ++ younger) st).tally.other = s.tally.other := by simp [State.recordGone]
  have pending : (s.recordGone (older ++ younger) st).tally.pending = s.tally.pending := by simp [State.recordGone]
  have trays : (s.recordGone (older ++ younger) st).report.trays = s.report.trays := by
    simp [State.recordGone, Report.trays, hq]
  by_cases outside : ∃ c d, s.tally.other = .sealed c d ∧ s.report.trays = []
  · obtain ⟨c, d, ho, hn⟩ := outside
    exact joinTrayRecord room order (other.trans ho) (trays.trans hn)
  · have law : (s.recordGone (older ++ younger) st).ReportLaw := by
      refine ⟨room.le, order, ?_, by rw [other, pending]; exact h.pending⟩
      cases ho : s.tally.other with
      | free => exact (State.trayRecordLaw_free (other.trans ho)).mpr (trays.trans ((State.trayRecordLaw_free ho).mp h.banks))
      | sealed c d =>
        have inside := ((State.trayRecordLaw_sealed ho).mp h.banks).resolve_right fun hn => outside ⟨c, d, ho, hn.1⟩
        exact (State.trayRecordLaw_sealed (other.trans ho)).mpr (.inl (trays.trans inside))
      | writing c d =>
        obtain ⟨tag', alone⟩ := (State.trayRecordLaw_writing ho).mp h.banks
        exact (State.trayRecordLaw_writing (other.trans ho)).mpr ⟨tag', trays.trans alone⟩
    rwa [law.joinTrayRecord_eq_self]

/-- R136, R141: a tray record leaves the queue, its bank becomes FREE, and a pending close is executed. -/
theorem trayAnswered {older younger : List ReportEntry} {t : TrayRecord} {tag : Nat} (h : s.ReportLaw)
    (hq : s.report.queue = older ++ { record := .tray t, state := .issued tag } :: younger) (st : Status) :
    (s.recordGone (older ++ younger) st).releaseBank.ReportLaw := by
  obtain ⟨room, order⟩ := h.recordGone hq st
  have issued : ({ record := .tray t, state := .issued tag } : ReportEntry) ∈ s.report.queue := by simp [hq]
  have ho : s.tally.other = .writing t.counts t.data := by
    rcases h.banks.of_mem issued with ⟨-, hw⟩ | ⟨ho, -⟩
    · cases hw
    · exact ho
  have notray : (s.recordGone (older ++ younger) st).NoTrayQueued := by
    obtain ⟨tag', alone⟩ := (State.trayRecordLaw_writing ho).mp h.banks
    rw [Report.trays, hq] at alone
    obtain ⟨hold, hyoung⟩ := noTray_of_filter_eq_singleton alone
    rw [State.noTrayQueued_iff, Report.trays]
    simp [State.recordGone, List.filter_append, hold, hyoung]
  rw [State.releaseBank_writing (c := t.counts) (d := t.data) (by simp [State.recordGone, ho])]
  exact settlePending room.le order notray rfl

theorem recordAnswered (h : s.ReportLaw) (tag : Nat) (st : Status) : (s.recordAnswered tag st).ReportLaw := by
  obtain he | ⟨c, older, younger, hq, he⟩ := s.recordAnswered_cases tag st
  · rwa [he]
  · rw [he]
    cases c with
    | piece p => exact h.pieceAnswered hq st
    | tray t =>
      have answered := h.trayAnswered hq st
      rwa [State.bankFollows_tray, answered.joinTrayRecord_eq_self]

/-- With the queue empty and the tally unit at its reset values. -/
theorem of_reset (hq : s.report.queue = []) (ht : s.tally = TallyUnit.reset) : s.ReportLaw where
  room := by simp [hq]
  order := by rw [hq]; rfl
  banks := (State.trayRecordLaw_free (by rw [ht]; rfl)).mpr (by rw [Report.trays, hq]; rfl)
  pending hn := absurd (by rw [ht]; rfl) hn

end State.ReportLaw

theorem reportLaw_keptByLedger : KeptByLedger State.ReportLaw where
  same _ _ f h := h.of_same (by rw [f.tally]) (by rw [f.tally]) (by rw [f.report])
  retire _ c p h := h.retire c p
  opened _ _ _ _ h := h.of_same rfl rfl rfl
  counts _ p h := h.countUninspected p
  close _ r h := h.requestClose r
  rest _ _ h := h.of_same (by simp) (by simp) (by simp)
  restart _ _ _ := .of_reset rfl rfl
  settle _ h := h.settlePending_eq_self.symm ▸ h
  join _ h := h.joinTrayRecord_eq_self.symm ▸ h
  injected _ h := h.issueInjected
  answered _ tag st h := h.recordAnswered tag st
  reset _ _ := .of_reset rfl rfl

/-- Settles O10: the operations on the ledger keep queue and banks in agreement, so every step does. -/
theorem stepKeepsReportLaw : Obligations.StepKeepsReportLaw := fun _ _ h e => reportLaw_keptByLedger.kept.step h e

end Sys2Proof.Machine
end

section
/-! SUPPORT. Arrivals: `KeptByArrivals P` lists what it takes for the presentation, holding and arrival of requests to keep a
property `P` that may speak of the issued list, which no arrival but a RESTART among its captures changes (R170, R171). -/

namespace Sys2Proof.Machine

/-- Every block that watches arrivals keeps `P`, whatever the path unit holds besides the issued list, and whatever the
setup unit holds. -/
structure KeptByArrivals (P : State → Prop) : Prop where
  path      : ∀ (s : State) (u : PathUnit), u.issued = s.path.issued → P s → P { s with path := u }
  setup     : ∀ (s : State) (u : SetupUnit), P s → P { s with setup := u }
  raise     : ∀ s f, P s → P (s.raise f)
  record    : ∀ s bs, P s → P (s.takeRecord bs)
  image     : ∀ s src sd base r, P s → P (s.offerImage src sd base r)
  exit      : ∀ s gate base r, P s → P (s.takeExitWrite gate base r)
  print     : ∀ s printer base r, P s → P (s.takeStatusWrite printer base r)
  dispatch  : ∀ gate base r (q : State × FillPlan), P q.1 → P (State.takeDispatchRead gate base r q).1
  printRead : ∀ printer base r (q : State × FillPlan), P q.1 → P (State.takePrintRead printer base r q).1

namespace KeptByArrivals

variable {P : State → Prop} {s : State} {settle : State → State}

/-- R149, R150: one slot of a host write. -/
theorem takeSetupSlot (k : KeptByArrivals P) (hs : ∀ s, P s → P (settle s)) (r : Request) (n : Nat) (h : P s) :
    P (State.takeSetupSlot settle r s n) := by
  have shadowed := fun v => k.setup s { s.setup with shadows := v } h
  unfold State.takeSetupSlot State.capture
  simp only []
  split
  · split
    · exact hs _ (k.record _ _ (shadowed _))
    · exact k.record _ _ (shadowed _)
  · exact shadowed _

/-- R171: one part of a request. -/
theorem takePart (k : KeptByArrivals P) (hs : ∀ s, P s → P (settle s)) (sources : Option SourceTable) (r : Request)
    (q : State × FillPlan) (p : Nat × Part) (h : P q.1) : P (State.takePart settle sources r q p).1 := by
  unfold State.takePart
  split
  · unfold State.takeSetupWrite
    simp only []
    split
    · exact foldl_keeps (fun _ n => k.takeSetupSlot hs r n) _ h
    · exact k.raise _ _ h
  · exact k.image _ _ _ _ _ h
  · exact k.exit _ _ _ _ h
  · exact k.print _ _ _ _ h
  · exact k.dispatch _ _ _ _ h
  · exact k.printRead _ _ _ _ h
  · exact h

theorem arrive (k : KeptByArrivals P) (hs : ∀ s, P s → P (settle s)) (l : UpLane) (r : Request) (h : P s) :
    P (s.arrive settle l r) := by
  have offered : ∀ t : State, P t → P (t.offer settle r).1 := fun t ht =>
    foldl_keeps (P := fun q : State × FillPlan => P q.1) (k.takePart hs _ r) _ (a := (t, [])) ht
  unfold State.arrive
  split
  · exact offered _ (k.path s _ rfl h)
  · exact k.path _ _ rfl (offered s h)

/-- R170: held requests, one after another. -/
theorem admitHeld (k : KeptByArrivals P) : ∀ (n : Nat) (s : State), P s → P (s.admitHeld n)
  | 0, _, h => h
  | n + 1, s, h => by
    have ih := k.admitHeld n
    have behind : ∀ (t : State) (c : BitVec 3), P t → P (t.presentBehind c) := fun t c ht => by
      unfold State.presentBehind
      split
      · exact k.path t _ rfl ht
      · exact ht
    unfold State.admitHeld
    split
    · exact h
    · exact ih _ (k.arrive ih _ _ (behind _ _ (k.path s _ rfl h)))

theorem settleHeld (k : KeptByArrivals P) (h : P s) : P s.settleHeld := k.admitHeld _ s h

/-- R168 to R170: a request presented at the U-port. -/
theorem present (k : KeptByArrivals P) (r : Request) (h : P s) : P (s.present r) := by
  unfold State.present
  split
  · exact k.path s _ rfl h
  · split
    · exact k.settleHeld (k.arrive (fun _ => k.settleHeld) _ r h)
    · exact k.path s _ rfl h

end KeptByArrivals

end Sys2Proof.Machine
end

section
/-! PROOF. O11: the injected writes whose links stand are the ISSUED entries of the report queue, and no two carry one tag
(R137, R147, R182). -/

namespace Sys2Proof.Machine

/-! ### The tags of the report queue -/

/-- The tags of the ISSUED entries, in the order of the queue. -/
def Report.tags (r : Report) : List Nat := r.queue.filterMap ReportEntry.tag?

@[simp] theorem ReportEntry.tag?_waiting (c : Record) :
    ReportEntry.tag? { record := c, state := .waiting } = none := rfl

@[simp] theorem ReportEntry.tag?_issued (c : Record) (tag : Nat) :
    ReportEntry.tag? { record := c, state := .issued tag } = some tag := rfl

theorem ReportEntry.tag?_eq_some {e : ReportEntry} {tag : Nat} : e.tag? = some tag ↔ e.state = .issued tag := by
  obtain ⟨c, st⟩ := e
  cases st <;> simp

/-- WAITING entries have no tag. -/
theorem filterMap_tag?_of_waiting {l : List ReportEntry} (h : ∀ e ∈ l, e.state = .waiting) :
    l.filterMap ReportEntry.tag? = [] := by
  refine List.filterMap_eq_nil_iff.mpr fun e he => ?_
  have := h e he
  obtain ⟨c, st⟩ := e
  subst this
  rfl

/-- A record that joins the queue has no tag. -/
theorem State.joinTrayRecord_tags (s : State) : s.joinTrayRecord.report.tags = s.report.tags := by
  unfold State.joinTrayRecord
  split
  · split
    · simp [Report.tags, Report.join]
    · rfl
  · rfl

theorem State.executeClose_tags (s : State) (r : CloseReason) (m : SealMark) :
    (s.executeClose r m).report.tags = s.report.tags := by
  rw [State.executeClose, State.joinTrayRecord_tags]
  simp

theorem State.requestClose_tags (s : State) (r : CloseReason) : (s.requestClose r).report.tags = s.report.tags := by
  by_cases ho : s.tally.other = .free
  · rw [State.requestClose_eq_executeClose ho, State.executeClose_tags]
  · rw [State.requestClose_eq_closeWaits ho]
    rfl

theorem State.limitCheck_tags (s : State) : s.limitCheck.report.tags = s.report.tags := by
  unfold State.limitCheck
  split
  · exact s.requestClose_tags .limit
  · rfl

theorem State.formPieceRecord_tags (s : State) (e : Entry) (d : Disposition) :
    (s.formPieceRecord e d).report.tags = s.report.tags := by
  unfold State.formPieceRecord
  simp only []
  split
  · simp [Report.tags]
  · rfl

theorem State.retire_tags (s : State) (c : RetireCause) (p : Nat) : (s.retire c p).report.tags = s.report.tags := by
  unfold State.retire
  split
  · rfl
  · exact (State.limitCheck_tags _).trans (State.formPieceRecord_tags _ _ _)

theorem State.settlePending_tags (s : State) : s.settlePending.report.tags = s.report.tags := by
  unfold State.settlePending
  split
  · exact State.executeClose_tags _ _ _
  · rfl

theorem State.bankFollows_tags (c : Record) (s : State) : (s.bankFollows c).report.tags = s.report.tags := by
  cases c with
  | piece p => rfl
  | tray t => exact State.settlePending_tags _

/-- The track table and the run modes issue and answer nothing. -/
theorem tags_keptByTable (l : List Nat) : KeptByTable fun s => s.report.tags = l where
  same _ _ f h := (congrArg Report.tags f.report).trans h
  retire s c p h := (s.retire_tags c p).trans h
  opened _ _ _ _ h := h
  counts s p h := by
    unfold State.countUninspected
    split <;> exact h
  close s r h := (s.requestClose_tags r).trans h
  rest _ _ h := (congrArg Report.tags (State.enterStandby_report _)).trans h

/-! ### The tags of the issued list -/

/-- R182: a tag is taken as an injected write of the list carries it. -/
theorem tagTaken_iff {l : List Issued} {t : Nat} : tagTaken l t = true ↔ t ∈ l.filterMap Issued.injectedTag := by
  simp only [tagTaken, List.any_eq_true, List.mem_filterMap]
  refine exists_congr fun i => and_congr_right fun _ => ?_
  cases hl : i.link <;> simp [Issued.injectedTag, hl]

/-- The tags whose links stand are among those carried. -/
theorem linkedTags_sublist (l : List Issued) :
    (l.filterMap Issued.linkedTag).Sublist (l.filterMap Issued.injectedTag) := by
  have : l.filterMap Issued.linkedTag =
      (l.filter fun i => decide (i.link = .injected true)).filterMap Issued.injectedTag := by
    rw [List.filterMap_filter]
    refine List.filterMap_congr fun i _ => ?_
    by_cases hl : i.link = .injected true <;> simp [Issued.linkedTag, Issued.injectedTag, hl]
  rw [this]
  exact List.filter_sublist.filterMap _

theorem Issued.linkedTag_unlink (i : Issued) : i.unlink.linkedTag = none := by
  rw [Issued.unlink_eq]
  by_cases hl : i.link = .forwarded <;> simp [Issued.linkedTag, hl]

theorem Issued.injectedTag_unlink (i : Issued) : i.unlink.injectedTag = i.injectedTag := by
  rw [Issued.unlink_eq]
  by_cases hl : i.link = .forwarded <;> simp [Issued.injectedTag, hl]

/-! ### What leaves the issued list alone -/

theorem State.stage_path (s : State) (f : Settings → Settings) : (s.stage f).path = s.path := by
  unfold State.stage
  simp only []
  split <;> rfl

theorem State.takeMemoryMap_path (s : State) (m : MemoryMapRecord) : (s.takeMemoryMap m).path = s.path := by
  unfold State.takeMemoryMap
  repeat' split
  all_goals simp

theorem State.takeSourceTable_path (s : State) (m : SourceTableRecord) : (s.takeSourceTable m).path = s.path := by
  unfold State.takeSourceTable
  repeat' split
  all_goals simp

theorem State.takeLaneMap_path (s : State) (m : LaneMapRecord) : (s.takeLaneMap m).path = s.path := by
  unfold State.takeLaneMap
  split <;> simp

theorem State.takeTraySet_path (s : State) (m : TraySetRecord) : (s.takeTraySet m).path = s.path := by
  unfold State.takeTraySet
  repeat' split
  all_goals simp

theorem State.takeCorrection_path (s : State) (m : CorrectionRecord) : (s.takeCorrection m).path = s.path := by
  unfold State.takeCorrection
  split <;> simp [State.stage_path]

theorem State.takeClassTest_path (s : State) (m : ClassTestRecord) : (s.takeClassTest m).path = s.path := by
  unfold State.takeClassTest
  split <;> simp [State.stage_path]

theorem State.takeGeometry_path (s : State) (m : GeometryRecord) : (s.takeGeometry m).path = s.path := by
  unfold State.takeGeometry
  split <;> simp [State.stage_path]

theorem State.takeDecision_path (s : State) (m : DecisionRecord) : (s.takeDecision m).path = s.path := by
  unfold State.takeDecision
  split <;> simp [State.stage_path]

theorem State.directRun_path (s : State) : s.directRun.path = s.path := by
  unfold State.directRun
  repeat' split
  all_goals rfl

theorem State.directDrain_path (s : State) : s.directDrain.path = s.path := by
  unfold State.directDrain
  split
  · exact (State.drainEndIfDue_track _).path
  · exact s.refuse_path _

theorem State.takeLaneMap_ledger (s : State) (m : LaneMapRecord) : LedgerFrame s (s.takeLaneMap m) := by
  unfold State.takeLaneMap
  split
  · exact .of_same rfl rfl rfl rfl
  · exact s.refuse_ledger _

/-- The lanes open and close without a look at the issued list or the report queue (R172 to R176). -/
structure LaneFrame (s t : State) : Prop where
  issued : t.path.issued = s.path.issued
  report : t.report = s.report

theorem LaneFrame.refl (s : State) : LaneFrame s s := ⟨rfl, rfl⟩

theorem LaneFrame.trans {s t u : State} (h : LaneFrame s t) (k : LaneFrame t u) : LaneFrame s u :=
  ⟨k.issued.trans h.issued, k.report.trans h.report⟩

theorem State.setLane_lanes (s : State) (l : Lane) (u : LaneUnit) : LaneFrame s (s.setLane l u) := ⟨rfl, rfl⟩

theorem State.closeLaneIfDue_lanes (s : State) (l : Lane) : LaneFrame s (s.closeLaneIfDue l) := by
  unfold State.closeLaneIfDue
  split
  · exact ⟨rfl, rfl⟩
  · exact .refl s

theorem State.refuse_lanes (s : State) (r : RefusalReason) : LaneFrame s (s.refuse r) := ⟨by simp, by simp⟩

theorem State.directLopen_lanes (s : State) (o : BitVec 8) : LaneFrame s (s.directLopen o) := by
  unfold State.directLopen State.openLaneDirective
  split
  · split
    · exact ⟨rfl, rfl⟩
    · exact s.refuse_lanes _
  · exact s.refuse_lanes _

theorem State.directLclose_lanes (s : State) (o : BitVec 8) : LaneFrame s (s.directLclose o) := by
  unfold State.directLclose State.closeLaneDirective
  split
  · split
    · exact (s.setLane_lanes _ _).trans (State.closeLaneIfDue_lanes _ _)
    · exact s.refuse_lanes _
  · exact s.refuse_lanes _

theorem State.takeGrant_lanes (s : State) (l : Lane) (n : Nat) : LaneFrame s (s.takeGrant l n) := by
  unfold State.takeGrant
  repeat' split
  all_goals exact ⟨rfl, rfl⟩

theorem State.takeCredit_lanes (s : State) (l : Lane) (n : Nat) : LaneFrame s (s.takeCredit l n) := by
  unfold State.takeCredit
  split <;> exact ⟨rfl, rfl⟩

theorem State.recordAnswered_path (s : State) (tag : Nat) (st : Status) : (s.recordAnswered tag st).path = s.path := by
  obtain he | ⟨c, older, younger, -, he⟩ := s.recordAnswered_cases tag st
  · rw [he]
  · rw [he, State.joinTrayRecord_path]
    cases c <;> simp [State.releaseBank, State.recordGone]

/-- R141: an entry ISSUED with a tag is found by it. -/
theorem takeIssuedRecord_ne_none {tag : Nat} {l : List ReportEntry} (h : tag ∈ l.filterMap ReportEntry.tag?) :
    takeIssuedRecord tag l ≠ none := by
  obtain ⟨e, he, ht⟩ := List.mem_filterMap.mp h
  induction l with
  | nil => cases he
  | cons x xs ih =>
    unfold takeIssuedRecord
    by_cases hx : x.state = .issued tag
    · simp [hx]
    · have hxs : e ∈ xs := (List.mem_cons.mp he).resolve_left fun hex =>
        hx (hex ▸ ReportEntry.tag?_eq_some.mp ht)
      obtain ⟨q, hq⟩ := Option.ne_none_iff_exists'.mp (ih (List.mem_filterMap.mpr ⟨e, hxs, ht⟩) hxs)
      simp [hx, hq]

/-! ### The law -/

namespace State.LinkLaw

variable {s t : State}

theorem of_same (h : s.LinkLaw) (hi : t.path.issued = s.path.issued) (ht : t.report.tags = s.report.tags) :
    t.LinkLaw where
  tags := hi ▸ h.tags
  low := hi ▸ h.low
  source := hi ▸ h.source
  links := (hi ▸ h.links).trans ht.symm

theorem of_ledger (h : s.LinkLaw) (f : LedgerFrame s t) (hp : t.path = s.path) : t.LinkLaw :=
  h.of_same (by rw [hp]) (by rw [f.report])

/-- R147, R163: RESTART clears the links and the queue. -/
theorem restarted (h : s.LinkLaw) : s.restarted.LinkLaw where
  tags := by
    simp only [State.restarted, List.filterMap_map, Function.comp_def, Issued.injectedTag_unlink]
    exact h.tags
  low := by
    simp only [State.restarted, List.filterMap_map, Function.comp_def, Issued.injectedTag_unlink]
    exact h.low
  source i hi hl := by
    obtain ⟨j, hj, rfl⟩ := List.mem_map.mp hi
    rw [Issued.unlink_eq] at hl ⊢
    exact h.source j hj fun hf => hl (if_pos hf)
  links := by
    simp only [State.restarted, List.filterMap_map, Function.comp_def, Issued.linkedTag_unlink]
    exact List.filterMap_none _

/-- R179: a forwarded request carries no tag of an injected write. -/
theorem forwarded (h : s.LinkLaw) {i : Issued} (hi : t.path.issued = s.path.issued ++ [i]) (hf : i.link = .forwarded)
    (ht : t.report.tags = s.report.tags) : t.LinkLaw where
  tags := by simpa [hi, Issued.injectedTag, hf] using h.tags
  low := by simpa [hi, Issued.injectedTag, hf] using h.low
  source j hj hl := by
    rw [hi, List.mem_append, List.mem_singleton] at hj
    rcases hj with hj | rfl
    · exact h.source j hj hl
    · exact absurd hf hl
  links := by
    have none : [i].filterMap Issued.linkedTag = [] := by simp [Issued.linkedTag, hf]
    rw [hi, List.filterMap_append, h.links, none, List.append_nil]
    exact ht.symm

theorem issueForward (h : s.LinkLaw) (l : UpLane) : (s.issueForward l).LinkLaw := by
  cases hq : s.path.queues.get l with
  | nil => simpa only [State.issueForward, hq] using h
  | cons q rest =>
    rw [State.issueForward_eq_forwarded hq]
    exact h.forwarded rfl rfl rfl

/-- R140, R182: the issue of the oldest WAITING record appends its tag to both lists. -/
theorem issueInjected (h : s.LinkLaw) (hr : s.ReportLaw) : s.issueInjected.LinkLaw := by
  obtain he | ⟨tag, c, older, younger, sent⟩ := s.issueInjected_cases
  · rwa [he]
  obtain ⟨hlow, hfree, -⟩ := freeTag_spec sent.free
  have fresh : tag ∉ s.path.issued.filterMap Issued.injectedTag := fun hm => by
    rw [tagTaken_iff.mpr hm] at hfree
    cases hfree
  have young := filterMap_tag?_of_waiting (issuedFirst_younger (sent.queue ▸ hr.order))
  have toNat : tag % 256 = tag := Nat.mod_eq_of_lt (by omega)
  have injected : s.issueInjected.path.issued.filterMap Issued.injectedTag =
      s.path.issued.filterMap Issued.injectedTag ++ [tag] := by
    simp [sent.issued, Issued.ofRecord, Issued.injectedTag, toNat]
  refine ⟨?_, fun t ht => ?_, fun i hi hl => ?_, ?_⟩
  · rw [injected]
    exact List.nodup_append.mpr ⟨h.tags, List.nodup_singleton _, fun a ha b hb hab =>
      fresh (List.mem_singleton.mp hb ▸ hab ▸ ha)⟩
  · rw [injected, List.mem_append, List.mem_singleton] at ht
    rcases ht with ht | rfl
    · exact h.low t ht
    · exact hlow
  · rw [sent.issued, List.mem_append, List.mem_singleton] at hi
    rcases hi with hi | rfl
    · exact h.source i hi hl
    · exact ⟨rfl, rfl⟩
  · have links := h.links
    rw [sent.queue] at links
    have linked : (Issued.ofRecord tag).linkedTag = some tag := by simp [Issued.ofRecord, Issued.linkedTag, toNat]
    rw [List.filterMap_append, List.filterMap_cons, ReportEntry.tag?_waiting, young, List.append_nil] at links
    rw [sent.issued, sent.report, List.filterMap_append, links, List.filterMap_append, List.filterMap_cons_some linked,
      List.filterMap_cons_some (ReportEntry.tag?_issued c tag), young, List.filterMap_nil]

/-! #### Responses (R141, R147, R180) -/

/-- R180: a request without a standing link leaves the issued list. -/
theorem unlinkedAnswered (h : s.LinkLaw) {before after : List Issued} {i : Issued}
    (hl : s.path.issued = before ++ i :: after) (hi : i.link ≠ .injected true)
    (hp : t.path.issued = before ++ after) (ht : t.report.tags = s.report.tags) : t.LinkLaw := by
  have sub : t.path.issued.Sublist s.path.issued := by
    rw [hp, hl]
    exact (List.sublist_cons_self _ _).append_left _
  have links := h.links
  have none : i.linkedTag = none := if_neg hi
  rw [hl, List.filterMap_append, List.filterMap_cons, none, ← List.filterMap_append, ← hp] at links
  exact ⟨h.tags.sublist (sub.filterMap _), fun t ht => h.low t ((sub.filterMap _).subset ht),
    fun j hj => h.source j (sub.subset hj), links.trans ht.symm⟩

/-- R141: a linked injected write leaves the issued list together with the entry that it carries. -/
theorem linkedAnswered (h : s.LinkLaw) {before after : List Issued} {i : Issued}
    (hl : s.path.issued = before ++ i :: after) (hi : i.link = .injected true) {older younger : List ReportEntry}
    {c : Record} (hq : s.report.queue = older ++ { record := c, state := .issued i.tag.toNat } :: younger)
    (hp : t.path.issued = before ++ after) (ht : t.report.tags = (older ++ younger).filterMap ReportEntry.tag?) :
    t.LinkLaw := by
  have sub : t.path.issued.Sublist s.path.issued := by
    rw [hp, hl]
    exact (List.sublist_cons_self _ _).append_left _
  have linked : i.linkedTag = some i.tag.toNat := if_pos hi
  have links := h.links
  have distinct := h.tags.sublist (linkedTags_sublist _)
  rw [hl, List.filterMap_append, List.filterMap_cons, linked] at links distinct
  obtain ⟨notin, distinct⟩ := List.nodup_middle.mp distinct |> List.nodup_cons.mp
  rw [List.mem_append, not_or] at notin
  rw [hq, List.filterMap_append, List.filterMap_cons, ReportEntry.tag?_issued] at links
  obtain ⟨hbefore, -, hafter⟩ := (List.append_cons_inj_of_notMem notin.1 notin.2).mp links
  refine ⟨h.tags.sublist (sub.filterMap _), fun t ht => h.low t ((sub.filterMap _).subset ht),
    fun j hj => h.source j (sub.subset hj), ?_⟩
  rw [hp, List.filterMap_append, hbefore, hafter, ← List.filterMap_append, ← ht]
  rfl

/-- R180: a response. -/
theorem takeResponse (h : s.LinkLaw) (source : BitVec 4) (tag : BitVec 8) (st : Status) (data : List Byte) :
    (s.takeResponse source tag st data).LinkLaw := by
  unfold State.takeResponse
  split
  · rename_i q hq
    obtain ⟨before, after, hl, hrest, -, -⟩ := matchIssued_spec (i := q.1) (rest := q.2) hq
    have lanes := State.closeLaneIfDue_lanes ((s.settleIssued q.1 q.2).deliver q.1 st data) q.1.lane
    refine of_same ?_ lanes.issued (congrArg Report.tags lanes.report)
    unfold State.deliver
    split
    · rename_i hi
      have linked : q.1.linkedTag = some q.1.tag.toNat := if_pos hi
      have mem : q.1.tag.toNat ∈ s.report.queue.filterMap ReportEntry.tag? := by
        rw [← h.links]
        exact List.mem_filterMap.mpr ⟨q.1, by rw [hl]; simp, linked⟩
      obtain ⟨⟨c, queue⟩, hc⟩ := Option.ne_none_iff_exists'.mp (takeIssuedRecord_ne_none mem)
      obtain ⟨older, younger, hqueue, hleft, -⟩ := takeIssuedRecord_spec hc
      refine h.linkedAnswered hl hi hqueue ?_ ?_
      · rw [State.recordAnswered_path]
        exact hrest
      · have found : takeIssuedRecord q.1.tag.toNat (s.settleIssued q.1 q.2).report.queue = some (c, queue) := hc
        rw [State.recordAnswered_eq found, State.joinTrayRecord_tags, State.bankFollows_tags, ← hleft]
        simp [State.recordGone, Report.tags]
    · rename_i hi
      exact h.unlinkedAnswered hl (by simp [hi]) hrest rfl
    · rename_i hi
      split <;> exact h.unlinkedAnswered hl (by simp [hi]) hrest rfl
  · split
    · exact h
    · exact h.of_same rfl rfl

/-! #### Records and directives -/

theorem of_lanes (h : s.LinkLaw) (f : LaneFrame s t) : t.LinkLaw := h.of_same f.issued (by rw [f.report])

theorem directRestart (h : s.LinkLaw) : s.directRestart.LinkLaw := by
  unfold State.directRestart
  split
  · exact h.restarted
  · exact h.of_lanes (s.refuse_lanes _)

theorem directDrain (h : s.LinkLaw) : s.directDrain.LinkLaw :=
  h.of_same (by rw [State.directDrain_path]) ((tags_keptByTable _).directDrain rfl)

theorem directStby (h : s.LinkLaw) : s.directStby.LinkLaw :=
  h.of_same (by rw [s.directStby_track.path]) ((tags_keptByTable _).directStby rfl)

theorem requestClose (h : s.LinkLaw) (r : CloseReason) : (s.requestClose r).LinkLaw :=
  h.of_same (by simp) (s.requestClose_tags r)

/-- R162: a directive. -/
theorem takeDirective (h : s.LinkLaw) (code operand : BitVec 8) : (s.takeDirective code operand).LinkLaw := by
  unfold State.takeDirective
  split
  · exact h.of_ledger s.directRun_ledger s.directRun_path
  · exact h.directDrain
  · exact h.directStby
  · exact h.of_same rfl rfl
  · exact h.requestClose _
  · exact h.of_same rfl rfl
  · exact h.of_same rfl rfl
  · exact h.of_same rfl rfl
  · exact h.of_lanes (s.directLopen_lanes operand)
  · exact h.of_lanes (s.directLclose_lanes operand)
  · exact h.directRestart
  · exact h.of_lanes (s.refuse_lanes _)

/-- R150: a capture. -/
theorem takeRecord (h : s.LinkLaw) (bs : List Byte) : (s.takeRecord bs).LinkLaw := by
  unfold State.takeRecord
  split
  · exact h.of_ledger (s.takeMemoryMap_ledger _) (s.takeMemoryMap_path _)
  · exact h.of_ledger (s.takeSourceTable_ledger _) (s.takeSourceTable_path _)
  · exact h.of_ledger (s.takeLaneMap_ledger _) (s.takeLaneMap_path _)
  · exact h.takeDirective _ _
  · exact h.of_same rfl rfl
  · exact h.of_ledger (s.takeCorrection_ledger _) (s.takeCorrection_path _)
  · exact h.of_ledger (s.takeClassTest_ledger _) (s.takeClassTest_path _)
  · exact h.of_ledger (s.takeGeometry_ledger _) (s.takeGeometry_path _)
  · exact h.of_ledger (s.takeDecision_ledger _) (s.takeDecision_path _)
  · exact h.of_ledger (s.takeTraySet_ledger _) (s.takeTraySet_path _)
  · exact h.of_lanes (s.refuse_lanes _)

end State.LinkLaw

/-- No block that watches arrivals issues or answers anything, and RESTART clears the links on both sides. -/
theorem linkLaw_keptByArrivals : KeptByArrivals State.LinkLaw where
  path _ _ hu h := h.of_same hu rfl
  setup _ _ h := h.of_same rfl rfl
  raise _ _ h := h.of_same rfl rfl
  record _ bs h := h.takeRecord bs
  image s src sd base r h := h.of_same (by rw [(s.offerImage_track src sd base r).path])
    ((tags_keptByTable _).offerImage src sd base r rfl)
  exit s gate base r h := h.of_same (by rw [(s.takeExitWrite_track gate base r).path])
    ((tags_keptByTable _).keptByExits.takeExitWrite gate base r rfl)
  print s printer base r h := h.of_ledger (s.takeStatusWrite_ledger printer base r)
    (s.takeStatusWrite_status printer base r).path
  dispatch gate base r q h := h.of_ledger (State.takeDispatchRead_ledger gate base r q)
    (State.takeDispatchRead_track gate base r q).path
  printRead printer base r q h := h.of_ledger (State.takePrintRead_ledger printer base r q)
    (State.takePrintRead_track printer base r q).path

/-- R177 to R179: the arbiter's next issue. -/
theorem State.LinkLaw.issueNext {s : State} (h : s.LinkLaw) (hr : s.ReportLaw) : s.issueNext.LinkLaw := by
  unfold State.issueNext
  split
  · unfold State.issueLane
    split
    · exact linkLaw_keptByArrivals.settleHeld (h.issueForward .img)
    · exact linkLaw_keptByArrivals.settleHeld (h.issueForward .ctl)
    · exact linkLaw_keptByArrivals.settleHeld (h.issueForward .blk)
    · exact h.issueInjected hr
  · exact h

/-- Every command keeps the links, from a state whose report queue is in order. -/
theorem State.LinkLaw.exec {s t : State} (h : s.LinkLaw) (hr : s.ReportLaw) (c : Instr) (e : exec c s = .next t) :
    t.LinkLaw := by
  have k := linkLaw_keptByArrivals
  cases c <;> injection e with e <;> subst e
  case pinReset straps => exact (State.linkLaw_resetWith straps).of_same rfl rfl
  case requestPresentation r => exact k.present r h
  case requestArrival r => exact k.present r h
  case heldRequestArrival => exact k.settleHeld h
  case imageWrite r => exact k.present r h
  case setupWrite r => exact k.present r h
  case memoryMap m => exact h.of_ledger (s.takeMemoryMap_ledger m) (s.takeMemoryMap_path m)
  case sourceTable m => exact h.of_ledger (s.takeSourceTable_ledger m) (s.takeSourceTable_path m)
  case laneMap m => exact k.settleHeld (h.of_ledger (s.takeLaneMap_ledger m) (s.takeLaneMap_path m))
  case alarm mask => exact h.of_same rfl rfl
  case correction m => exact h.of_ledger (s.takeCorrection_ledger m) (s.takeCorrection_path m)
  case classTest m => exact h.of_ledger (s.takeClassTest_ledger m) (s.takeClassTest_path m)
  case geometry m => exact h.of_ledger (s.takeGeometry_ledger m) (s.takeGeometry_path m)
  case decision m => exact h.of_ledger (s.takeDecision_ledger m) (s.takeDecision_path m)
  case traySet m => exact h.of_ledger (s.takeTraySet_ledger m) (s.takeTraySet_path m)
  case run => exact h.of_ledger s.directRun_ledger s.directRun_path
  case drain => exact h.directDrain
  case stby => exact h.directStby
  case clrs => exact h.of_same rfl rfl
  case tclose => exact h.requestClose _
  case csusp => exact h.of_same rfl rfl
  case cres => exact h.of_same rfl rfl
  case crel => exact h.of_same rfl rfl
  case lopen o => exact h.of_lanes (s.directLopen_lanes o)
  case lclose o => exact h.of_lanes (s.directLclose_lanes o)
  case restart => exact h.directRestart
  case drainEnd =>
    exact h.of_same (by rw [s.drainEndIfDue_track.path]) ((tags_keptByTable _).drainEndIfDue rfl)
  case dispatchRead r => exact k.present r h
  case printRead r => exact k.present r h
  case liveRead r => exact k.present r h
  case exitWrite r => exact k.present r h
  case printStatusWrite r => exact k.present r h
  case grant l n => exact h.of_lanes (s.takeGrant_lanes l _)
  case credit l n => exact h.of_lanes (s.takeCredit_lanes l _)
  case drop l => exact h.of_same rfl rfl
  case issue => exact h.issueNext hr
  case response source tag st data => exact h.takeResponse source tag st data
  case pendingClose => exact h.of_same (by simp) s.settlePending_tags
  case trayRecordJoining => exact h.of_same (by simp) s.joinTrayRecord_tags
  case close l => exact h.of_lanes (s.closeLaneIfDue_lanes l)

/-- Settles O11: what is issued or answered leaves or joins both lists at once, and RESTART clears both. -/
theorem stepKeepsLinkLaw : Obligations.StepKeepsLinkLaw := by
  intro s t hr h e
  unfold step at e
  split at e
  · injection e with e
    exact e ▸ h
  · rename_i c rest _
    have taken : State.LinkLaw { s with pending := rest } := h.of_same rfl rfl
    exact taken.exec (hr.of_same rfl rfl rfl) c e

end Sys2Proof.Machine
end

section
/-! PROOF. O35: a tray close executes, waits or merges; the two events that follow it. -/
namespace Sys2Proof.Machine

theorem exec_tclose_closed {s : State} (ho : s.tally.other = .free) (ht : s.NoTrayQueued) :
    exec .tclose s = .next (s.trayClosed .tclose .none) :=
  congrArg Host.Outcome.next
    ((State.requestClose_eq_executeClose ho .tclose).trans (State.executeClose_eq_trayClosed ht .tclose .none))

theorem exec_tclose_waits {s : State} (ho : s.tally.other ≠ .free) :
    exec .tclose s = .next (s.closeWaits .tclose) :=
  congrArg Host.Outcome.next (State.requestClose_eq_closeWaits ho .tclose)

theorem State.settlePending_trayClosed {s : State} {p : Pending} (ho : s.tally.other = .free)
    (hp : s.tally.pending = some p) (ht : s.NoTrayQueued) :
    s.settlePending = (({ s with tally := { s.tally with pending := none } } : State).trayClosed p.reason
      (if p.merged then .merged else .pending)) :=
  (State.settlePending_executes ho hp).trans (State.executeClose_eq_trayClosed
    (s := { s with tally := { s.tally with pending := none } }) ht p.reason p.sealMark)

/-- Settles O35: TCLOSE by the state of the other bank, then each event where it is due and where it is not. -/
theorem trayClosesWaitAndMerge : Obligations.TrayClosesWaitAndMerge := by
  refine ⟨fun s ho ht => exec_tclose_closed ho ht, fun s ho hp => ?_, fun s p ho hp => ?_, fun s p ho hp ht => ?_,
    fun s h => ?_, fun s c d ho hl ht => ?_, fun s h => ?_⟩
  · rw [exec_tclose_waits ho, State.closeWaits, hp]
    rfl
  · rw [exec_tclose_waits ho, State.closeWaits, hp]
    rfl
  · exact congrArg Host.Outcome.next (State.settlePending_trayClosed ho hp ht)
  · exact congrArg Host.Outcome.next (State.settlePending_eq_self h)
  · exact congrArg Host.Outcome.next (State.joinTrayRecord_joined ho hl ht)
  · exact congrArg Host.Outcome.next (State.joinTrayRecord_eq_self h)

end Sys2Proof.Machine
end

section
/-! SUPPORT. Byte lists read back (R184): the numbers in an append, in the bytes of a number and in counter blocks. -/
namespace Sys2Proof.Machine

/-! ### Lengths -/

@[simp] theorem length_bytesOfNum (k n : Nat) : (bytesOfNum k n).length = k := by
  induction k generalizing n with
  | zero => rfl
  | succ k ih => simp [bytesOfNum, ih]

theorem length_flatMap_bytesOfNum (l : List Nat) : (l.flatMap (bytesOfNum 4)).length = 4 * l.length := by
  induction l with
  | nil => rfl
  | cons n ns ih =>
    simp only [List.flatMap_cons, List.length_append, length_bytesOfNum, ih, List.length_cons]
    omega

@[simp] theorem length_countsBytes (c : Counts) : (countsBytes c).length = 48 := by
  rw [countsBytes, length_flatMap_bytesOfNum, Vector.length_toList]

@[simp] theorem PieceRecord.length_bytes (p : PieceRecord) : (PieceRecord.bytes p).length = 32 := by
  simp [PieceRecord.bytes]

@[simp] theorem TrayRecord.length_bytes (t : TrayRecord) : (TrayRecord.bytes t).length = 128 := by
  simp [TrayRecord.bytes]

@[simp] theorem LaneUnit.length_bytes (u : LaneUnit) : u.bytes.length = 2 := by
  simp [LaneUnit.bytes]

@[simp] theorem State.length_liveBytes (s : State) : s.liveBytes.length = 256 := by
  unfold State.liveBytes
  extract_lets held
  simp only [List.length_append, length_bytesOfNum, length_countsBytes, LaneUnit.length_bytes]

/-! ### Reading in an append -/

@[simp] theorem byteAt_append_left {a b : List Byte} {i : Nat} (h : i < a.length) : byteAt (a ++ b) i = byteAt a i := by
  simp only [byteAt, List.getD_append _ _ _ _ h]

@[simp] theorem byteAt_append_right {a b : List Byte} {i : Nat} (h : a.length ≤ i) :
    byteAt (a ++ b) i = byteAt b (i - a.length) := by
  simp only [byteAt, List.getD_append_right _ _ _ _ h]

@[simp] theorem half_append_left {a b : List Byte} {i : Nat} (h : i + 2 ≤ a.length) : half (a ++ b) i = half a i := by
  simp only [half]
  rw [byteAt_append_left (by omega), byteAt_append_left (by omega)]

@[simp] theorem half_append_right {a b : List Byte} {i : Nat} (h : a.length ≤ i) :
    half (a ++ b) i = half b (i - a.length) := by
  simp only [half]
  rw [byteAt_append_right h, byteAt_append_right (by omega), Nat.sub_add_comm h]

@[simp] theorem word_append_left {a b : List Byte} {i : Nat} (h : i + 4 ≤ a.length) : word (a ++ b) i = word a i := by
  simp only [word]
  rw [byteAt_append_left (by omega), byteAt_append_left (by omega), byteAt_append_left (by omega),
    byteAt_append_left (by omega)]

@[simp] theorem word_append_right {a b : List Byte} {i : Nat} (h : a.length ≤ i) :
    word (a ++ b) i = word b (i - a.length) := by
  simp only [word]
  rw [byteAt_append_right h, byteAt_append_right (by omega), byteAt_append_right (by omega),
    byteAt_append_right (by omega), Nat.sub_add_comm h, Nat.sub_add_comm h, Nat.sub_add_comm h]

/-! ### Reading the bytes of a number -/

@[simp] theorem byteAt_bytesOfNum_one (n : Nat) : byteAt (bytesOfNum 1 n) 0 = BitVec.ofNat 8 n := rfl

@[simp] theorem half_bytesOfNum (n : Nat) : half (bytesOfNum 2 n) 0 = n % 65536 := by
  simp only [half, byteAt, bytesOfNum, numOfBytes, List.getD_cons_zero, List.getD_cons_succ, BitVec.toNat_ofNat]
  omega

@[simp] theorem word_bytesOfNum (n : Nat) : word (bytesOfNum 4 n) 0 = n % 4294967296 := by
  simp only [word, byteAt, bytesOfNum, numOfBytes, List.getD_cons_zero, List.getD_cons_succ, BitVec.toNat_ofNat]
  omega

@[simp] theorem byteAt_bytesOfNum_zero (k i : Nat) : byteAt (bytesOfNum k 0) i = 0 := by
  induction k generalizing i with
  | zero => simp [byteAt, bytesOfNum]
  | succ k ih =>
    cases i with
    | zero => rfl
    | succ i => exact ih i

@[simp] theorem half_bytesOfNum_zero (k i : Nat) : half (bytesOfNum k 0) i = 0 := by
  simp [half, numOfBytes]

/-! ### Counter blocks -/

theorem word_flatMap_bytesOfNum (l : List Nat) (k : Nat) :
    k < l.length → word (l.flatMap (bytesOfNum 4)) (4 * k) = l.getD k 0 % 4294967296 := by
  induction l generalizing k with
  | nil => intro h; exact absurd h (Nat.not_lt_zero k)
  | cons n ns ih =>
    intro h
    cases k with
    | zero => simp
    | succ k =>
      have hk : 4 * (k + 1) - 4 = 4 * k := by omega
      rw [List.flatMap_cons, word_append_right (by simp), length_bytesOfNum, hk, ih k (by simpa using h)]
      rfl

/-- R144: counter `k` of a block of twelve. -/
theorem word_countsBytes (counts : Counts) (k : Fin 12) :
    word (countsBytes counts) (4 * k.val) = counts[k] % 4294967296 := by
  rw [countsBytes, word_flatMap_bytesOfNum _ _ (by simp)]
  simp [List.getD_eq_getElem?_getD]

end Sys2Proof.Machine
end

section
/-! PROOF. O23: the issue of a granted RPT lane sends the oldest WAITING record (R140, R179, R182). -/
namespace Sys2Proof.Machine

theorem freeTag_of_lowest {s : State} {tag : Nat} (h : s.LowestFreeTag tag) : freeTag s.path.issued = some tag := by
  obtain ⟨hlt, hfree, hlow⟩ := h
  have tagFree : tagTaken s.path.issued tag = false := by
    rw [← Bool.not_eq_true]
    exact fun ht => hfree (tagTaken_iff.mp ht)
  refine List.find?_eq_some_iff_getElem.mpr ⟨by simp [tagFree], tag, by simpa using hlt, by simp, fun j hj => ?_⟩
  simp [tagTaken_iff.mpr (hlow j hj)]

theorem issueOldest_at {tag : Nat} {older younger : List ReportEntry} {c : Record}
    (h : ∀ e ∈ older, e.state ≠ .waiting) :
    issueOldest tag (older ++ { record := c, state := .waiting } :: younger) =
      some (c, older ++ { record := c, state := .issued tag } :: younger) := by
  induction older with
  | nil => rfl
  | cons e es ih =>
    have rest := ih fun x hx => h x (List.mem_cons_of_mem e hx)
    cases he : e.state with
    | waiting => exact absurd he (h e List.mem_cons_self)
    | issued t => simp only [List.cons_append, issueOldest, he, rest]

theorem Record.length_bytes (c : Record) : c.bytes.length = 8 * c.beats := by
  cases c with
  | piece p => exact PieceRecord.length_bytes p
  | tray t => exact TrayRecord.length_bytes t

theorem injectedWrite_eq_recordWrite (addr tag : Nat) (c : Record) :
    injectedWrite (BitVec.ofNat 32 addr) tag c = recordWrite addr tag c.bytes := by
  have beats : c.beats = c.bytes.length / 8 := by
    rw [c.length_bytes]
    omega
  rw [injectedWrite, recordWrite, beats]

/-- R179, R182: the grant of RPT with a memory map captured: the state after the write of record `c` to `addr`. -/
theorem exec_issue_record {s : State} {m : MemoryMap} {tag addr : Nat} {older younger : List ReportEntry} {c : Record}
    (hg : s.granted = some .rpt) (hm : s.setup.map = some m) (ht : s.LowestFreeTag tag)
    (hq : s.report.queue = older ++ { record := c, state := .waiting } :: younger)
    (ho : ∀ e ∈ older, e.state ≠ .waiting) (ha : c.addressIn m = BitVec.ofNat 32 addr) :
    exec .issue s = .next (({ s with tally := s.tally.recordIssued c } : State).injected
      (recordWrite addr tag c.bytes) tag (older ++ { record := c, state := .issued tag } :: younger)) := by
  have oldest : issueOldest tag s.report.queue = _ := hq ▸ issueOldest_at ho
  have address : s.recordAddress c = BitVec.ofNat 32 addr := by rw [State.recordAddress, hm, ← ha]
  have issue : exec .issue s = .next s.issueInjected := by
    show Host.Outcome.next s.issueNext = _
    rw [State.issueNext, hg]
    rfl
  rw [issue, State.issueInjected]
  simp only [freeTag_of_lowest ht, oldest, address, injectedWrite_eq_recordWrite, State.spendFree, hm]
  rfl

/-- Settles O23: a piece record leaves the banks as they are, a tray record takes its bank from SEALED to WRITING. -/
theorem issueSendsTheOldestRecord : Obligations.IssueSendsTheOldestRecord := by
  refine ⟨fun s m tag older younger p hg hm ht hq ho => ?_, fun s m tag older younger c d hg hm ht hq ho hb => ?_,
    PieceRecord.length_bytes, TrayRecord.length_bytes⟩
  · exact exec_issue_record hg hm ht hq ho rfl
  · have sent := exec_issue_record hg hm ht hq ho rfl
    have bank : s.tally.recordIssued (.tray { data := d, counts := c }) = { s.tally with other := .writing c d } := by
      rw [TallyUnit.recordIssued, hb]
      rfl
    rwa [bank] at sent

end Sys2Proof.Machine
end

section
/-! SUPPORT. A matched response (R180): what it does to the path unit, apart from what it does to the rest. -/
namespace Sys2Proof.Machine

/-! ### The path unit after a matched response -/

theorem State.answered_eq_withPath (s : State) (l : Lane) (others : List Issued) (up : List UpReturn) :
    s.answered l others up = s.withPath (s.answered l others up).path := by
  unfold State.answered
  extract_lets u
  split <;> rfl

theorem State.answered_path_congr {s t : State} (h : t.path = s.path) (l : Lane) (others : List Issued)
    (up : List UpReturn) : (t.answered l others up).path = (s.answered l others up).path := by
  have lane : t.lane l = s.lane l := congrArg (PerLane.get · l) (congrArg PathUnit.lanes h)
  by_cases due : (s.lane l).state = .closing ∧ (s.lane l).outstanding - 1 = 0
  · simp only [State.answered, lane, h, if_pos due]
  · simp only [State.answered, lane, h, if_neg due]

/-- What takes no look at the path unit and leaves it as it is may be done before or after the request leaves. -/
theorem State.answered_comm {f : State → State} {s : State} (hw : ∀ q, f (s.withPath q) = (f s).withPath q)
    (hp : (f s).path = s.path) (l : Lane) (others : List Issued) (up : List UpReturn) :
    (f s).answered l others up = f (s.answered l others up) := by
  rw [State.answered_eq_withPath (f s), State.answered_path_congr hp, ← hw, ← State.answered_eq_withPath]

/-- R175, R180: the lane of a settled request closes when it is due. -/
theorem State.settleIssued_closeLaneIfDue (s : State) (i : Issued) (rest : List Issued) :
    (s.settleIssued i rest).closeLaneIfDue i.lane = s.answered i.lane rest [] := by
  have lane : (s.settleIssued i rest).lane i.lane =
      { s.lane i.lane with outstanding := (s.lane i.lane).outstanding - 1 } := PerLane.get_set_same _ _ _
  unfold State.closeLaneIfDue State.answered
  simp only [lane, List.append_nil]
  split
  · rename_i due
    unfold State.closeLane
    rw [lane, due.2]
    cases hl : i.lane <;> simp only [State.settleIssued, hl] <;> rfl
  · rfl

/-! ### Responses to injected writes -/

@[simp] theorem State.settlePending_withPath (s : State) (q : PathUnit) :
    (s.withPath q).settlePending = s.settlePending.withPath q := by
  by_cases ho : s.tally.other = .free
  · cases hp : s.tally.pending with
    | none => rw [State.settlePending_eq_self (.inr hp), State.settlePending_eq_self (s := s.withPath q) (.inr hp)]
    | some p =>
      rw [State.settlePending_executes ho hp, State.settlePending_executes (s := s.withPath q) ho hp]
      exact State.executeClose_withPath { s with tally := { s.tally with pending := none } } q p.reason p.sealMark
  · rw [State.settlePending_eq_self (.inl ho), State.settlePending_eq_self (s := s.withPath q) (.inl ho)]

@[simp] theorem State.bankFollows_withPath (s : State) (q : PathUnit) (c : Record) :
    (s.withPath q).bankFollows c = (s.bankFollows c).withPath q := by
  cases c with
  | piece p => rfl
  | tray t => exact State.settlePending_withPath { s with tally := _ } q

@[simp] theorem State.recordGone_withPath (s : State) (q : PathUnit) (queue : List ReportEntry) (st : Status) :
    (s.withPath q).recordGone queue st = (s.recordGone queue st).withPath q :=
  State.raiseIf_withPath { s with report := _ } q _ _

@[simp] theorem State.recordAnswered_withPath (s : State) (q : PathUnit) (tag : Nat) (st : Status) :
    (s.withPath q).recordAnswered tag st = (s.recordAnswered tag st).withPath q := by
  cases h : takeIssuedRecord tag s.report.queue with
  | none => rw [State.recordAnswered_none h, State.recordAnswered_none (s := s.withPath q) h]
  | some c =>
    obtain ⟨c, queue⟩ := c
    rw [State.recordAnswered_eq h, State.recordAnswered_eq (s := s.withPath q) h]
    simp

theorem State.takeResponse_matched {s : State} {src : BitVec 4} {tag : BitVec 8} {before after : List Issued} {i : Issued}
    (h : s.Answers src tag before i after) (st : Status) (data : List Byte) :
    s.takeResponse src tag st data =
      ((s.settleIssued i (before ++ after)).deliver i st data).closeLaneIfDue i.lane := by
  rw [State.takeResponse, h.list, matchIssued_at h.source h.tag h.oldest]

/-- R182: a linked write's record is answered; the issued list and the lane follow. -/
theorem exec_response_linked {s : State} {src : BitVec 4} {tag : BitVec 8} {before after : List Issued} {i : Issued}
    (h : s.Answers src tag before i after) (hl : i.link = .injected true) (st : Status) (data : List Byte) :
    exec (.response src tag st data) s =
      .next ((s.recordAnswered tag.toNat st).answered i.lane (before ++ after) []) := by
  have settled : (s.settleIssued i (before ++ after)).deliver i st data =
      (s.recordAnswered tag.toNat st).settleIssued i (before ++ after) := by
    rw [State.deliver, hl, ← h.tag]
    have path := s.recordAnswered_path i.tag.toNat st
    refine (s.recordAnswered_withPath (s.settleIssued i (before ++ after)).path i.tag.toNat st).trans ?_
    simp only [State.settleIssued, State.setLane, State.lane, State.withPath, path]
  refine congrArg Host.Outcome.next ((State.takeResponse_matched h st data).trans ?_)
  rw [settled, State.settleIssued_closeLaneIfDue]

/-- R147: a write whose link was cleared. -/
theorem exec_response_unlinked {s : State} {src : BitVec 4} {tag : BitVec 8} {before after : List Issued} {i : Issued}
    (h : s.Answers src tag before i after) (hl : i.link = .injected false) (st : Status) (data : List Byte) :
    exec (.response src tag st data) s = .next (s.answered i.lane (before ++ after) []) := by
  refine congrArg Host.Outcome.next ((State.takeResponse_matched h st data).trans ?_)
  rw [State.deliver, hl]
  exact State.settleIssued_closeLaneIfDue s i (before ++ after)

theorem matchIssued_eq_none {src : BitVec 4} {tag : BitVec 8} {l : List Issued}
    (h : ∀ i ∈ l, ¬(i.source = src ∧ i.tag = tag)) : matchIssued src tag l = none := by
  induction l with
  | nil => rfl
  | cons i is ih =>
    rw [matchIssued, if_neg (h i List.mem_cons_self), ih fun j hj => h j (List.mem_cons_of_mem i hj)]

end Sys2Proof.Machine
end

section
/-! PROOF. O25, O26: the responses to piece records and to tray records (R136, R139, R141, R147, R180). -/
namespace Sys2Proof.Machine

/-! ### REPORT_FAULT of an ERR response (R141) -/

theorem State.raiseIf_reportFault (s : State) (st : Status) :
    s.raiseIf (decide (st = .err)) .reportFault = if st = .err then s.flagged 11 else s := by
  by_cases h : st = .err <;> simp only [State.raiseIf, h, decide_true, decide_false, if_true, if_false] <;> rfl

theorem State.answered_raiseIf_reportFault (s : State) (st : Status) (l : Lane) (others : List Issued) :
    (s.raiseIf (decide (st = .err)) .reportFault).answered l others [] =
      if st = .err then (s.answered l others []).flagged 11 else s.answered l others [] := by
  rw [State.answered_comm (f := State.raiseIf _ _) (s.raiseIf_withPath · _ _) (s.raiseIf_path _ _),
    State.raiseIf_reportFault]

/-! ### A piece record (O25) -/

/-- R139, R141: no tray record waits outside the queue for the place a piece record leaves. -/
theorem State.recordAnswered_piece {s : State} {tag : Nat} {older younger : List ReportEntry} {p : PieceRecord}
    (hq : s.report.queue = older ++ { record := .piece p, state := .issued tag } :: younger)
    (ho : ∀ e ∈ older, e.state ≠ .issued tag)
    (hs : (∃ c d, s.tally.other = .sealed c d) → s.report.hasTray = true) (st : Status) :
    s.recordAnswered tag st = s.recordGone (older ++ younger) st := by
  rw [State.recordAnswered_eq (hq ▸ takeIssuedRecord_at ho), State.bankFollows_piece]
  refine State.joinTrayRecord_eq_self ?_
  have other : (s.recordGone (older ++ younger) st).tally = s.tally := State.raiseIf_tally _ _ _
  have report : (s.recordGone (older ++ younger) st).report.queue = older ++ younger := by simp [State.recordGone]
  rw [other]
  by_cases sealed : ∃ c d, s.tally.other = .sealed c d
  · have tray := hs sealed
    rw [Report.hasTray_eq_any, hq] at tray
    refine .inr (.inr fun none => ?_)
    rw [State.NoTrayQueued, report] at none
    simp only [List.any_append, List.any_cons, ReportEntry.isTray_piece, Bool.false_or, Bool.or_eq_true,
      List.any_eq_true] at tray
    obtain ⟨e, he, ht⟩ | ⟨e, he, ht⟩ := tray
    · exact absurd ht (by simp [none e (List.mem_append_left _ he)])
    · exact absurd ht (by simp [none e (List.mem_append_right _ he)])
  · exact .inl fun c d h => sealed ⟨c, d, h⟩

/-- Settles O25: a linked piece record, a write whose link was cleared, and a response that matches nothing. -/
theorem responseToAPieceRecord : Obligations.ResponseToAPieceRecord := by
  refine ⟨fun s tag st data before after i older younger p ha hl hq ho hs => ?_,
    fun s tag st data before after i ha hl => exec_response_unlinked ha hl st data, fun s src tag st data h => ?_⟩
  · rw [exec_response_linked ha hl, State.recordAnswered_piece hq ho hs]
    exact congrArg Host.Outcome.next (State.answered_raiseIf_reportFault _ st i.lane (before ++ after))
  · refine congrArg Host.Outcome.next ?_
    rw [State.takeResponse, matchIssued_eq_none h]
    rfl

/-! ### A tray record (O26) -/

/-- R136: the state once the answered tray record and its bank are gone. -/
def State.trayGone (queue : List ReportEntry) (st : Status) (s : State) : State :=
  ({ s with report := { s.report with queue := queue }, tally := { s.tally with other := .free } } : State).raiseIf
    (decide (st = .err)) .reportFault

theorem State.recordGone_releaseBank {s : State} {c : Counts} {d : SealData} (ho : s.tally.other = .writing c d)
    (queue : List ReportEntry) (st : Status) :
    (s.recordGone queue st).releaseBank = (s.trayGone queue st).settlePending := by
  have tally : (s.recordGone queue st).tally = s.tally := State.raiseIf_tally _ _ _
  rw [State.releaseBank_writing (by rw [tally, ho])]
  cases st <;> rfl

theorem State.trayGone_tally (s : State) (queue : List ReportEntry) (st : Status) :
    (s.trayGone queue st).tally = { s.tally with other := .free } := State.raiseIf_tally _ _ _

theorem State.trayGone_queue (s : State) (queue : List ReportEntry) (st : Status) :
    (s.trayGone queue st).report.queue = queue := by
  simp [State.trayGone]

/-- R133, R139: an executed close with room in the queue leaves the tray record queued. -/
theorem State.trayClosed_joinTrayRecord {s : State} (hl : s.report.queue.length < 8) (r : CloseReason) (k : SealMark) :
    (s.trayClosed r k).joinTrayRecord = s.trayClosed r k := by
  refine State.joinTrayRecord_eq_self (.inr (.inr fun none => ?_))
  have queued := none { record := .tray { data := _, counts := s.tally.counts }, state := .waiting }
    (by rw [State.trayClosed, if_pos hl]; exact List.mem_append_right _ (List.mem_singleton_self _))
  rw [ReportEntry.isTray_tray] at queued
  cases queued

theorem State.recordAnswered_tray {s : State} {tag : Nat} {older younger : List ReportEntry} {c : Counts} {d : SealData}
    (hq : s.report.queue = older ++ { record := .tray { data := d, counts := c }, state := .issued tag } :: younger)
    (ho : ∀ e ∈ older, e.state ≠ .issued tag) (hb : s.tally.other = .writing c d) (st : Status) :
    s.recordAnswered tag st = (s.trayGone (older ++ younger) st).settlePending.joinTrayRecord := by
  rw [State.recordAnswered_eq (hq ▸ takeIssuedRecord_at ho), State.bankFollows_tray, State.recordGone_releaseBank hb]

/-- Settles O26: the bank becomes FREE, and a pending close, if there is one, is executed then. -/
theorem responseToATrayRecord : Obligations.ResponseToATrayRecord := by
  intro s tag st data before after i older younger c d ha hl hq ho hn hlen hb t u
  have gone : (s.trayGone (older ++ younger) st).answered i.lane (before ++ after) [] = u :=
    State.answered_raiseIf_reportFault _ st i.lane (before ++ after)
  have free : (s.trayGone (older ++ younger) st).tally.other = .free := by rw [State.trayGone_tally]
  have pending : (s.trayGone (older ++ younger) st).tally.pending = s.tally.pending := by rw [State.trayGone_tally]
  rw [exec_response_linked ha hl, State.recordAnswered_tray hq ho hb]
  refine ⟨fun hp => ?_, fun p hp => ?_⟩
  · rw [State.settlePending_eq_self (.inr (pending.trans hp)), State.joinTrayRecord_eq_self (.inl (by simp [free])), gone]
  · have room : (s.trayGone (older ++ younger) st).report.queue.length < 8 := by
      rw [State.trayGone_queue]
      rw [hq] at hlen
      simp only [List.length_append, List.length_cons] at hlen ⊢
      omega
    have notray : (s.trayGone (older ++ younger) st).NoTrayQueued := by
      rw [State.NoTrayQueued, State.trayGone_queue]
      exact hn
    rw [State.settlePending_trayClosed free (pending.trans hp) notray, State.trayClosed_joinTrayRecord (by exact room), ← gone]
    exact congrArg Host.Outcome.next (State.answered_comm (s := s.trayGone (older ++ younger) st)
      (f := fun v => State.trayClosed { v with tally := { v.tally with pending := none } } p.reason _)
      (fun q => rfl) rfl i.lane (before ++ after) [])

end Sys2Proof.Machine
end

section
/-! PROOF. O28: LANE_MAP, ALARM and TRAY_SET replace the whole (R135, R152, R158, R166, R186). -/
namespace Sys2Proof.Machine

theorem forall_mem_toList_iff {α : Type} {n : Nat} {v : Vector α n} {P : α → Prop} :
    (∀ b ∈ v.toList, P b) ↔ ∀ i : Fin n, P v[i] := by
  simp only [List.mem_iff_getElem, Vector.length_toList, Vector.getElem_toList]
  exact ⟨fun h i => h _ ⟨i.val, i.isLt, rfl⟩, fun h b ⟨i, hi, hb⟩ => hb ▸ h ⟨i, hi⟩⟩

/-! ### LANE_MAP (R152) -/

theorem UpLane.ofByte_eq (b : BitVec 8) : UpLane.ofByte b = [UpLane.img, .ctl, .blk][b.toNat]? := by
  unfold UpLane.ofByte
  split_ifs with h0 h1 h2
  · subst h0; rfl
  · subst h1; rfl
  · subst h2; rfl
  · exact (List.getElem?_eq_none (by simp only [List.length_cons, List.length_nil]; bv_omega)).symm

theorem UpLane.isSome_ofByte {b : BitVec 8} : (UpLane.ofByte b).isSome = true ↔ b.toNat < 3 := by
  simp [UpLane.ofByte_eq]

theorem UpLane.ofByte_code {b : BitVec 8} (h : b.toNat < 3) : ((UpLane.ofByte b).getD .blk).toLane.code = b.toNat := by
  rw [UpLane.ofByte_eq]
  generalize b.toNat = n at h
  interval_cases n <;> rfl

theorem LaneMapRecord.inRange_iff {m : LaneMapRecord} : m.inRange = true ↔ ∀ i : Fin 7, m.lanes[i].toNat < 3 := by
  simp only [LaneMapRecord.inRange, List.all_eq_true, UpLane.isSome_ofByte]
  exact forall_mem_toList_iff

theorem exec_laneMap_inRange {m : LaneMapRecord} {s : State} (hh : s.path.held = []) (h : m.inRange = true) :
    exec (.laneMap m) s = .next { s with setup := { s.setup with laneMap := m.map } } := by
  refine congrArg Host.Outcome.next ?_
  rw [State.takeLaneMap, if_pos h]
  exact State.settleHeld_of_held_nil hh

theorem exec_laneMap_refused {m : LaneMapRecord} {s : State} (hh : s.path.held = []) (h : ¬ m.inRange = true) :
    exec (.laneMap m) s = .next (s.refusedFor .range) := by
  refine congrArg Host.Outcome.next ?_
  rw [State.takeLaneMap, if_neg h, State.refuse_range]
  exact State.settleHeld_of_held_nil hh

/-! ### ALARM (R166) -/

theorem Flag.exists_index (i : Fin 14) : ∃ f : Flag, f.index = i.val := by
  have all : ∀ i : Fin 14, ∃ f ∈ [Flag.setupRefused, .setupForeign, .onceRepeat, .runRefused, .lineFault, .tableForced,
      .pieceLost, .lateDispatch, .bandSkip, .cancelHeld, .recordDrop, .reportFault, .laneDrop, .strayWrite],
      f.index = i.val := by decide
  obtain ⟨f, -, hf⟩ := all i
  exact ⟨f, hf⟩

theorem State.alarmHigh_iff (s : State) :
    s.alarmHigh = true ↔ ∃ f : Flag, s.flagSet f = true ∧ s.setup.alarmMask.getLsbD f.index = true := by
  rw [State.alarmHigh, decide_eq_true_eq]
  constructor
  · intro high
    by_contra none
    refine high (BitVec.eq_of_getLsbD_eq fun i hi => ?_)
    obtain ⟨f, hf⟩ := Flag.exists_index ⟨i, hi⟩
    have clear : ¬ (s.status.flags.getLsbD f.index = true ∧ s.setup.alarmMask.getLsbD f.index = true) :=
      fun both => none ⟨f, both⟩
    rw [hf, ← Bool.and_eq_true, Bool.not_eq_true] at clear
    rw [BitVec.getLsbD_and, clear]
    exact BitVec.getLsbD_zero.symm
  · rintro ⟨f, hs, hm⟩ low
    have bit := congrArg (BitVec.getLsbD · f.index) low
    rw [State.flagSet] at hs
    simp [hs, hm] at bit

/-! ### TRAY_SET (R158) -/

theorem actionOfByte_eq {b : BitVec 8} (h : 1 ≤ b.toNat) :
    actionOfByte b = [Action.pass, .rotate, .flip, .flipRotate, .cull][b.toNat - 1]? := by
  unfold actionOfByte
  split_ifs with h1 h2 h3 h4 h5
  · subst h1; rfl
  · subst h2; rfl
  · subst h3; rfl
  · subst h4; rfl
  · subst h5; rfl
  · exact (List.getElem?_eq_none (by simp only [List.length_cons, List.length_nil]; bv_omega)).symm

theorem isSome_actionOfByte {b : BitVec 8} : (actionOfByte b).isSome = true ↔ 1 ≤ b.toNat ∧ b.toNat ≤ 5 := by
  by_cases h : 1 ≤ b.toNat
  · simp only [actionOfByte_eq h, isSome_getElem?, List.length_cons, List.length_nil]
    omega
  · have zero : b = 0 := BitVec.eq_of_toNat_eq (by simp; omega)
    subst zero
    decide

theorem TraySetRecord.inRange_iff {m : TraySetRecord} : m.inRange = true ↔
    (∀ c : Fin 8, 1 ≤ m.actions[c].toNat ∧ m.actions[c].toNat ≤ 5) ∧ (∀ k : Fin 8, m.stackers[k].toNat ≤ 15) ∧
      m.diePh.toNat ≤ 3 ∧ m.dieCol.toNat ≤ 3 ∧ 2 ≤ m.ageLimit.toNat ∧ m.ageLimit.toNat ≤ 11 := by
  simp only [TraySetRecord.inRange, Bool.and_eq_true, List.all_eq_true, isSome_actionOfByte, decide_eq_true_eq,
    forall_mem_toList_iff, and_assoc]

/-- Settles O28: each record by its range, and in range by the mode; the ALARM output by the bits of flags and mask. -/
theorem laneMapAlarmAndTraySetReplaceTheWhole : Obligations.LaneMapAlarmAndTraySetReplaceTheWhole := by
  refine ⟨fun m s hh h => ⟨m.map, fun i => ?_, exec_laneMap_inRange hh (LaneMapRecord.inRange_iff.mpr h)⟩,
    fun m s hh h => ?_, fun mask s => rfl, State.alarmHigh_iff, fun m s h hs => ?_, fun m s h hs => ?_, fun m s h => ?_,
    fun m => TraySetRecord.inRange_iff, fun m h => ?_⟩
  · rw [Fin.getElem_fin, LaneMapRecord.map, Vector.getElem_map]
    exact UpLane.ofByte_code (h i)
  · obtain ⟨i, hi⟩ := h
    exact exec_laneMap_refused hh fun hr => absurd (LaneMapRecord.inRange_iff.mp hr i) (by omega)
  · exact congrArg Host.Outcome.next ((if_pos h).trans (if_pos hs))
  · exact congrArg Host.Outcome.next ((if_pos h).trans (if_neg hs))
  · exact congrArg Host.Outcome.next ((if_neg (by simp [h])).trans s.refuse_range)
  · obtain ⟨actions, -⟩ := TraySetRecord.inRange_iff.mp h
    refine ⟨fun c => ?_, fun k => ?_, rfl, rfl, rfl, rfl⟩
    · obtain ⟨a, ha⟩ := Option.isSome_iff_exists.mp (isSome_actionOfByte.mpr (actions c))
      rw [← actionOfByte_eq (actions c).1, Fin.getElem_fin m.traySet.facing, TraySetRecord.traySet, Vector.getElem_map]
      exact ha.trans (congrArg some (by rw [← Fin.getElem_fin m.actions, ha]; rfl))
    · rw [Fin.getElem_fin, TraySetRecord.traySet, Vector.getElem_map]
      rfl

end Sys2Proof.Machine
end

section
/-! PROOF. O48: a live read takes a snapshot (R145, R146). -/
namespace Sys2Proof.Machine

/-! ### The plan of a read by its own bytes -/

/-- A partial function that is defined between `b` and `b + n` alone. -/
theorem filterMap_range_of_support {β : Type} {g : Nat → Option β} {b n N : Nat} (hN : b + n ≤ N)
    (hg : ∀ a, ¬(b ≤ a ∧ a < b + n) → g a = none) :
    (List.range N).filterMap g = (List.range n).filterMap fun o => g (b + o) := by
  obtain ⟨k, rfl⟩ := Nat.exists_eq_add_of_le hN
  have before : (List.range b).filterMap g = [] :=
    List.filterMap_eq_nil_iff.mpr fun a ha => hg a (by have := List.mem_range.mp ha; omega)
  have after : (List.range k).filterMap (g ∘ (b + n + ·)) = [] :=
    List.filterMap_eq_nil_iff.mpr fun a _ => hg (b + n + a) (by omega)
  rw [List.range_add, List.range_add, List.filterMap_append, List.filterMap_append, List.filterMap_map,
    List.filterMap_map, before, after, List.append_nil, List.nil_append]
  rfl

/-- The byte a plan gives the address `a`: the bytes stand from `base`. -/
def plannedAt (r : Request) (base : Nat) (bytes : List Byte) (a : Nat) : Option (Nat × Byte) :=
  if (base ≤ a ∧ a < base + bytes.length) ∧ reqLo r ≤ a ∧ a < reqHi r then some (a - reqLo r, byteAt bytes (a - base))
  else none

/-- R145: the plan's bytes in the order of the request's bytes. -/
theorem planOf_eq_filterMap (r : Request) (base : Nat) (bytes : List Byte) :
    planOf r base bytes = (List.range (8 * r.beats)).filterMap fun i =>
      if base ≤ reqLo r + i ∧ reqLo r + i < base + bytes.length then some (i, byteAt bytes (reqLo r + i - base))
      else none := by
  have hi : reqHi r = reqLo r + 8 * r.beats := rfl
  calc planOf r base bytes
      = (List.range bytes.length).filterMap fun o => plannedAt r base bytes (base + o) := by
        refine List.filterMap_congr fun o ho => ?_
        have lt := List.mem_range.mp ho
        simp [plannedAt, lt]
    _ = (List.range (base + bytes.length + reqHi r)).filterMap (plannedAt r base bytes) :=
        (filterMap_range_of_support (g := plannedAt r base bytes) (by omega) fun a ha => if_neg fun h => ha h.1).symm
    _ = (List.range (8 * r.beats)).filterMap fun i => plannedAt r base bytes (reqLo r + i) :=
        filterMap_range_of_support (g := plannedAt r base bytes) (by omega) fun a ha => if_neg fun h => ha (hi ▸ h.2)
    _ = _ := by
        refine List.filterMap_congr fun i h => ?_
        have lt := List.mem_range.mp h
        simp [plannedAt, hi, lt]

/-- R145: a read inside the window gets every byte of its own. -/
theorem planOf_of_inside {r : Request} {base : Nat} {bytes : List Byte} (h : reqInside r base bytes.length = true) :
    planOf r base bytes = (List.range (8 * r.beats)).map fun i => (i, byteAt bytes (reqLo r - base + i)) := by
  have hi : reqHi r = reqLo r + 8 * r.beats := rfl
  simp only [reqInside, Bool.and_eq_true, decide_eq_true_eq] at h
  rw [planOf_eq_filterMap, ← List.filterMap_eq_map]
  refine List.filterMap_congr fun i ho => ?_
  have lt := List.mem_range.mp ho
  rw [if_pos (by omega), Nat.sub_add_comm h.1]
  rfl

/-! ### The read -/

section LiveRead

variable {s : State} {m : MemoryMap} {r : Request}

theorem Request.wellFormedAs_read (h : r.wellFormedAs .read = true) : r.kind = .read ∧ 1 ≤ r.beats := by
  simp only [Request.wellFormedAs, Request.wellFormed, Bool.and_eq_true, decide_eq_true_eq] at h
  exact ⟨h.2, h.1.1.1⟩

theorem partsOf_live {u : SetupUnit} (hm : u.map = some m) (hk : r.kind = .read) (ho : reqOutside r = false)
    (hd : reqTouches r m.dispatch 512 = false) (hp : reqTouches r m.print 1024 = false)
    (hl : reqTouches r m.live 256 = true) : partsOf u r = [(m.live, .live)] := by
  simp [partsOf, hm, hk, ho, partIf, hd, hp, hl]

/-- R145: a read that falls into the live window alone. -/
theorem State.exec_liveRead (ha : s.AcceptsAtOnce r) (hk : r.kind = .read) (hp : partsOf s.setup r = [(m.live, .live)]) :
    exec (.liveRead r) s = .next (s.queued r (planOf r m.live s.liveBytes)) := by
  refine congrArg Host.Outcome.next ((State.present_readPart ha hk hp).trans ?_)
  simp only [State.takePart, State.takeLiveRead, List.nil_append, State.queued]

theorem MemoryMap.live_aligned {straps : BitVec 16} (h : m.placed straps = true) : m.live % 1024 = 0 := by
  have align := (Bool.and_eq_true_iff.mp h).1
  simp only [MemoryMap.extents, List.all_cons, Bool.and_eq_true, decide_eq_true_eq] at align
  obtain ⟨-, -, -, -, -, -, live, -⟩ := align
  exact live

/-- R160, R168: the live window's alignment keeps a read inside it in one page. -/
theorem reqCrosses_of_inside_live (ha : m.live % 1024 = 0) (hb : 1 ≤ r.beats) (h : reqInside r m.live 256 = true) :
    reqCrosses r = false := by
  have hi : reqHi r = reqLo r + 8 * r.beats := rfl
  simp only [reqInside, Bool.and_eq_true, decide_eq_true_eq] at h
  simp only [reqCrosses, ne_eq, decide_eq_false_iff_not, not_not]
  omega

/-- R160: a read inside the live window touches no other. -/
theorem partsOf_inside_live (hm : s.setup.map = some m) (placed : m.placed s.setup.straps = true) (hk : r.kind = .read)
    (hb : 1 ≤ r.beats) (hs : r.source ≠ 15) (h : reqInside r m.live 256 = true) :
    partsOf s.setup r = [(m.live, .live)] := by
  have within := reqWithin_of_inside h hb
  have dispatch := within.not_touches
    (spansMeet_comm _ _ ▸ MemoryMap.apart placed (i := 3) (j := 7) (by decide) (by decide))
  have print := within.not_touches
    (spansMeet_comm _ _ ▸ MemoryMap.apart placed (i := 4) (j := 7) (by decide) (by decide))
  exact partsOf_live hm hk (reqOutside_eq_false (reqCrosses_of_inside_live (MemoryMap.live_aligned placed) hb h) hs)
    dispatch print within.touches

end LiveRead

/-! ### The first six bytes (section 10.8) -/

theorem State.liveBytes_six (s : State) : byteAt s.liveBytes 0 = BitVec.ofNat 8 s.mode.code ∧
    byteAt s.liveBytes 1 = BitVec.ofNat 8 s.entries.length ∧
    byteAt s.liveBytes 2 = BitVec.ofNat 8 s.status.setupReason.code ∧
    byteAt s.liveBytes 3 = BitVec.ofNat 8 s.status.runReason.code ∧
    half s.liveBytes 4 = s.status.flags.toNat := by
  unfold State.liveBytes
  extract_lets held
  have flags := s.status.flags.isLt
  simp only [List.append_assoc]
  simp
  omega

/-- Settles O48: a read inside the window gets all of its bytes from the snapshot, any other those that lie inside. -/
theorem liveReadTakesASnapshot : Obligations.LiveReadTakesASnapshot := by
  refine ⟨fun s m r hm placed hw hs ha h => ?_, fun s m r hm hw hs hc ha hl hd hp => ?_,
    fun s => ⟨s.length_liveBytes, s.liveBytes_six⟩⟩
  · obtain ⟨hk, hb⟩ := Request.wellFormedAs_read hw
    rw [State.exec_liveRead ha hk (partsOf_inside_live hm (placed.map m hm).2 hk hb hs h),
      planOf_of_inside (by rwa [s.length_liveBytes])]
  · obtain ⟨hk, -⟩ := Request.wellFormedAs_read hw
    rw [State.exec_liveRead ha hk (partsOf_live hm hk (reqOutside_eq_false hc hs) hd hp hl), planOf_eq_filterMap,
      s.length_liveBytes]

end Sys2Proof.Machine
end

section
/-! SUPPORT. The fields of the words of chapter 10: bits of a number, shared codes and their widths, marks. -/
namespace Sys2Proof.Machine

/-! ### Bits of a number -/

theorem bitOf_eq_getLsbD (b : Byte) (i : Nat) : bitOf b.toNat i = b.getLsbD i := by
  simp only [bitOf, BitVec.getLsbD, Nat.testBit_eq_decide_div_mod_eq]

/-- A field inside a wider field. -/
theorem bits_bits {n lo W a w : Nat} (h : a + w ≤ W) : bits (bits n lo W) a w = bits n (lo + a) w := by
  obtain ⟨k, rfl⟩ := Nat.exists_eq_add_of_le h
  simp only [bits]
  rw [Nat.add_assoc, pow_add 2 a, Nat.mod_mul_right_div_self, Nat.div_div_eq_div_mul, ← pow_add 2 lo,
    Nat.mod_mod_of_dvd _ (pow_dvd_pow 2 (Nat.le_add_right w k))]

/-! ### Widths of the shared codes (section 10.2) -/

theorem Cls.code_lt (c : Cls) : c.code < 4 := by cases c <;> decide
theorem Turn.code_lt (t : Turn) : t.code < 8 := by cases t <;> decide
theorem Outcome.code_lt (o : Outcome) : o.code < 8 := by cases o <;> decide
theorem DecisionKind.code_lt (k : DecisionKind) : k.code < 4 := by cases k <;> decide
theorem SideState.code_lt (s : SideState) : s.code < 8 := by cases s <;> decide
theorem SkipReason.code_lt (r : SkipReason) : r.code < 16 := by cases r <;> decide
theorem PrintAction.code_lt (a : PrintAction) : a.code < 4 := by cases a <;> simp [PrintAction.code]
theorem PrintStatus.code_lt (s : PrintStatus) : s.code < 8 := by cases s <;> decide
theorem CloseReason.code_lt (r : CloseReason) : r.code < 4 := by cases r <;> decide
theorem SealMark.code_lt (m : SealMark) : m.code < 4 := by cases m <;> decide
theorem LaneState.code_lt (s : LaneState) : s.code < 4 := by cases s <;> decide

theorem PrintAction.reasonCode_lt (a : PrintAction) : a.reasonCode < 16 := by
  cases a with
  | print x y die => exact Nat.zero_lt_succ 15
  | skip why => exact why.code_lt

/-! ### Bytes of marks -/

theorem toNat_ofNat_of_lt {n : Nat} (h : n < 256) : (BitVec.ofNat 8 n).toNat = n := by
  rw [BitVec.toNat_ofNat]
  exact Nat.mod_eq_of_lt h

/-- A byte of three marks, from bit 0 on. -/
theorem marksByte (a b c : Bool) :
    (BitVec.ofNat 8 (mark 0 a + mark 1 b + mark 2 c)).getLsbD 0 = a ∧
      (BitVec.ofNat 8 (mark 0 a + mark 1 b + mark 2 c)).getLsbD 1 = b ∧
      (BitVec.ofNat 8 (mark 0 a + mark 1 b + mark 2 c)).getLsbD 2 = c ∧
      (BitVec.ofNat 8 (mark 0 a + mark 1 b + mark 2 c)).toNat < 8 := by
  cases a <;> cases b <;> cases c <;> decide

/-- A byte of a two-bit field at bit 0 and two marks above it. -/
theorem fieldThenMarks (n : Nat) (a b : Bool) :
    bits (BitVec.ofNat 8 (field 0 2 n + mark 2 a + mark 3 b)).toNat 0 2 = n % 4 ∧
      (BitVec.ofNat 8 (field 0 2 n + mark 2 a + mark 3 b)).getLsbD 2 = a ∧
      (BitVec.ofNat 8 (field 0 2 n + mark 2 a + mark 3 b)).getLsbD 3 = b ∧
      (BitVec.ofNat 8 (field 0 2 n + mark 2 a + mark 3 b)).toNat < 16 := by
  have small : ∀ (v : Fin 4) (a b : Bool),
      bits (BitVec.ofNat 8 (v.val * 2 ^ 0 + mark 2 a + mark 3 b)).toNat 0 2 = v.val ∧
        (BitVec.ofNat 8 (v.val * 2 ^ 0 + mark 2 a + mark 3 b)).getLsbD 2 = a ∧
        (BitVec.ofNat 8 (v.val * 2 ^ 0 + mark 2 a + mark 3 b)).getLsbD 3 = b ∧
        (BitVec.ofNat 8 (v.val * 2 ^ 0 + mark 2 a + mark 3 b)).toNat < 16 := by decide
  exact small ⟨n % 4, Nat.mod_lt n (by decide)⟩ a b

/-- A byte of two marks from bit 0 on and a two-bit field above them. -/
theorem marksThenField (a b : Bool) (n : Nat) :
    (BitVec.ofNat 8 (mark 0 a + mark 1 b + field 2 2 n)).getLsbD 0 = a ∧
      (BitVec.ofNat 8 (mark 0 a + mark 1 b + field 2 2 n)).getLsbD 1 = b ∧
      bits (BitVec.ofNat 8 (mark 0 a + mark 1 b + field 2 2 n)).toNat 2 2 = n % 4 ∧
      (BitVec.ofNat 8 (mark 0 a + mark 1 b + field 2 2 n)).toNat < 16 := by
  have small : ∀ (a b : Bool) (v : Fin 4),
      (BitVec.ofNat 8 (mark 0 a + mark 1 b + v.val * 2 ^ 2)).getLsbD 0 = a ∧
        (BitVec.ofNat 8 (mark 0 a + mark 1 b + v.val * 2 ^ 2)).getLsbD 1 = b ∧
        bits (BitVec.ofNat 8 (mark 0 a + mark 1 b + v.val * 2 ^ 2)).toNat 2 2 = v.val ∧
        (BitVec.ofNat 8 (mark 0 a + mark 1 b + v.val * 2 ^ 2)).toNat < 16 := by decide
  exact small a b ⟨n % 4, Nat.mod_lt n (by decide)⟩

end Sys2Proof.Machine
end

section
/-! SUPPORT. The words of a piece record (section 10.6): each is the sum of parts that share no bit. -/
namespace Sys2Proof.Machine

namespace PieceRecord

variable (p : PieceRecord)

/-! ### The parts -/

/-- Word 2 from bit 4: decision kind and outcome. -/
def decisionPart : Nat :=
  match p.decision with
  | some (k, o) => k.code + 4 * o.code
  | none => 0

/-- Word 2 from bit 9: presence, outcome kind, turn and stacker of the dispatch answer. -/
def dispatchPart : Nat :=
  match p.dispatch with
  | some (k, t, st) => 1 + 2 * k.code.val + 16 * t.code + 128 * (st % 16)
  | none => 0

/-- Word 2 from bit 20: presence and number of the stacker used. -/
def stackerPart : Nat :=
  match p.stacker with
  | some st => 1 + 2 * (st % 16)
  | none => 0

/-- Word 2 from bit 25: presence, corner and class of the winner. -/
def winnerPart : Nat :=
  match p.winner with
  | some w => 1 + 2 * w.corner.val + 16 * w.cls.code
  | none => 0

/-- Word 2 from bit 31: presence of the position. -/
def positionPart : Nat := if p.position.isSome then 1 else 0

/-- Word 4 from bit 0: the winner's centre. -/
def centrePart : Nat :=
  match p.winner with
  | some w => w.xc % 1024 + 1024 * (w.yc % 512)
  | none => 0

/-- Word 4 from bit 19: the position's x. -/
def xPart : Nat :=
  match p.position with
  | some q => q.1 % 1024
  | none => 0

/-- Word 4 from bit 29: the print status. -/
def statusPart : Nat :=
  match p.printStatus with
  | some st => st.code
  | none => 0

/-- Word 5 from bit 0: the position's y. -/
def yPart : Nat :=
  match p.position with
  | some q => q.2 % 512
  | none => 0

/-- Word 5 from bit 9: print action and skip reason. -/
def printPart : Nat :=
  match p.print with
  | some a => a.code + 4 * a.reasonCode
  | none => 0

/-! ### Their widths -/

theorem decisionPart_lt : p.decisionPart < 32 := by
  unfold decisionPart
  split
  · rename_i k o _
    have := k.code_lt
    have := o.code_lt
    omega
  · decide

theorem dispatchPart_lt : p.dispatchPart < 2048 := by
  unfold dispatchPart
  split
  · rename_i k t st _
    have := k.code.isLt
    have := t.code_lt
    omega
  · decide

theorem stackerPart_lt : p.stackerPart < 32 := by
  unfold stackerPart
  split
  · omega
  · decide

theorem winnerPart_lt : p.winnerPart < 64 := by
  unfold winnerPart
  split
  · rename_i w _
    have := w.corner.isLt
    have := w.cls.code_lt
    omega
  · decide

theorem positionPart_lt : p.positionPart < 2 := by
  unfold positionPart
  split <;> decide

theorem centrePart_lt : p.centrePart < 524288 := by
  unfold centrePart
  split
  · omega
  · decide

theorem xPart_lt : p.xPart < 1024 := by
  unfold xPart
  split
  · omega
  · decide

theorem statusPart_lt : p.statusPart < 8 := by
  unfold statusPart
  split
  · rename_i st _
    exact st.code_lt
  · decide

theorem yPart_lt : p.yPart < 512 := by
  unfold yPart
  split
  · omega
  · decide

theorem printPart_lt : p.printPart < 64 := by
  unfold printPart
  split
  · rename_i a _
    have := a.code_lt
    have := a.reasonCode_lt
    omega
  · decide

/-! ### The words -/

theorem word2_eq : p.word2 = p.disposition.code.val + 16 * p.decisionPart + 512 * p.dispatchPart +
    1048576 * p.stackerPart + 33554432 * p.winnerPart + 2147483648 * p.positionPart := by
  unfold word2
  refine congrArg₂ (· + ·) (congrArg₂ (· + ·) (congrArg₂ (· + ·) (congrArg₂ (· + ·) (congrArg₂ (· + ·) ?_ ?_) ?_) ?_) ?_) ?_
  · have := p.disposition.code.isLt
    simp only [field]
    omega
  · unfold decisionPart
    cases p.decision with
    | none => rfl
    | some d =>
      obtain ⟨k, o⟩ := d
      have := k.code_lt
      have := o.code_lt
      simp only [field]
      omega
  · unfold dispatchPart
    cases p.dispatch with
    | none => rfl
    | some d =>
      obtain ⟨k, t, st⟩ := d
      have := k.code.isLt
      have := t.code_lt
      simp only [field, mark, if_true]
      omega
  · unfold stackerPart
    cases p.stacker with
    | none => rfl
    | some st =>
      simp only [field, mark, if_true]
      omega
  · unfold winnerPart
    cases p.winner with
    | none => rfl
    | some w =>
      have := w.corner.isLt
      have := w.cls.code_lt
      simp only [field, mark, if_true]
      omega
  · unfold positionPart
    cases p.position.isSome <;> rfl

theorem word4_eq : p.word4 = p.centrePart + 524288 * p.xPart + 536870912 * p.statusPart := by
  unfold word4
  refine congrArg₂ (· + ·) (congrArg₂ (· + ·) ?_ ?_) ?_
  · unfold centrePart
    cases p.winner with
    | none => rfl
    | some w =>
      simp only [field]
      omega
  · unfold xPart
    cases p.position with
    | none => rfl
    | some q =>
      simp only [field]
      omega
  · unfold statusPart
    cases p.printStatus with
    | none => rfl
    | some st =>
      have := st.code_lt
      simp only [field]
      omega

theorem word5_eq : p.word5 = p.yPart + 512 * p.printPart + 32768 * p.remarks.toNat := by
  unfold word5
  refine congrArg₂ (· + ·) (congrArg₂ (· + ·) ?_ ?_) ?_
  · unfold yPart
    cases p.position with
    | none => rfl
    | some q =>
      simp only [field]
      omega
  · unfold printPart
    cases p.print with
    | none => rfl
    | some a =>
      have := a.code_lt
      have := a.reasonCode_lt
      simp only [field]
      omega
  · have := p.remarks.isLt
    simp only [field]
    omega

/-! ### Each part by its place in its word -/

theorem word2_lt : p.word2 < 4294967296 := by
  have := p.disposition.code.isLt
  have := p.decisionPart_lt
  have := p.dispatchPart_lt
  have := p.stackerPart_lt
  have := p.winnerPart_lt
  have := p.positionPart_lt
  rw [word2_eq]
  omega

theorem bits_word2 : bits p.word2 0 4 = p.disposition.code.val ∧ bits p.word2 4 5 = p.decisionPart ∧
    bits p.word2 9 11 = p.dispatchPart ∧ bits p.word2 20 5 = p.stackerPart ∧ bits p.word2 25 6 = p.winnerPart ∧
    bits p.word2 31 1 = p.positionPart := by
  have := p.disposition.code.isLt
  have := p.decisionPart_lt
  have := p.dispatchPart_lt
  have := p.stackerPart_lt
  have := p.winnerPart_lt
  have := p.positionPart_lt
  simp only [bits, word2_eq]
  omega

theorem word4_lt : p.word4 < 4294967296 := by
  have := p.centrePart_lt
  have := p.xPart_lt
  have := p.statusPart_lt
  rw [word4_eq]
  omega

theorem bits_word4 : bits p.word4 0 19 = p.centrePart ∧ bits p.word4 19 10 = p.xPart ∧ bits p.word4 29 3 = p.statusPart := by
  have := p.centrePart_lt
  have := p.xPart_lt
  have := p.statusPart_lt
  simp only [bits, word4_eq]
  omega

theorem word5_lt : p.word5 < 4294967296 := by
  have := p.yPart_lt
  have := p.printPart_lt
  have := p.remarks.isLt
  rw [word5_eq]
  omega

theorem bits_word5 :
    bits p.word5 0 9 = p.yPart ∧ bits p.word5 9 6 = p.printPart ∧ bits p.word5 15 17 = p.remarks.toNat := by
  have := p.yPart_lt
  have := p.printPart_lt
  have := p.remarks.isLt
  simp only [bits, word5_eq]
  omega

end PieceRecord

/-- Section 10.6 words 6 and 7. -/
theorem SideRecord.bits_word (r : SideRecord) : r.word < 2147483648 ∧ bits r.word 0 3 = r.state.code ∧
    bits r.word 3 11 = r.n % 2048 ∧ bits r.word 14 8 = min r.faulted 255 ∧ bits r.word 22 9 = r.maxExtent % 512 := by
  have := r.state.code_lt
  have eq : r.word = r.state.code + 8 * (r.n % 2048) + 16384 * min r.faulted 255 + 4194304 * (r.maxExtent % 512) := by
    simp only [SideRecord.word, field]
    omega
  simp only [bits, eq]
  omega

end Sys2Proof.Machine
end

section
/-! PROOF. O54: the formats place their fields (chapter 10; R143, R144, R184, R187, R188). -/
namespace Sys2Proof.Machine

/-! ### Line header, dispatch word, print record (sections 10.3 and 10.5) -/

theorem Header.ofBytes_fields (bs : List Byte) :
    let h := Header.ofBytes bs
    h.piece = half bs 0 ∧ h.index = half bs 2 % 1024 ∧ h.side = (if (byteAt bs 4).getLsbD 0 = true then .back else .face) ∧
      h.lead = (byteAt bs 4).getLsbD 1 ∧ h.trail = (byteAt bs 4).getLsbD 2 ∧ h.double = (byteAt bs 4).getLsbD 3 ∧
      h.samples = half bs 6 % 1024 ∧ h.top = half bs 8 % 1024 ∧ h.bottom = half bs 10 % 1024 := by
  simp [Header.ofBytes, bitOf_eq_getLsbD, bits]

theorem DispatchAnswer.bytes_fields (a : DispatchAnswer) :
    let b := a.bytes
    b.length = 8 ∧ half b 0 = a.piece % 65536 ∧ (byteAt b 2).toNat = a.kind.code.val ∧ (byteAt b 3).toNat = a.turn.code ∧
      (byteAt b 4).toNat = a.stacker % 16 ∧ (byteAt b 5).getLsbD 0 = a.early ∧ (byteAt b 5).getLsbD 1 = a.clamped ∧
      (byteAt b 5).getLsbD 2 = a.late ∧ (byteAt b 5).toNat < 8 ∧ half b 6 = 0 := by
  have kind := a.kind.code.isLt
  have turn := a.turn.code_lt
  have marks : byteAt a.bytes 5 = BitVec.ofNat 8 (mark 0 a.early + mark 1 a.clamped + mark 2 a.late) := by
    simp [DispatchAnswer.bytes]
  obtain ⟨early, clamped, late, few⟩ := marksByte a.early a.clamped a.late
  intro b
  refine ⟨a.length_bytes, ?_, ?_, ?_, ?_, marks ▸ early, marks ▸ clamped, marks ▸ late, marks ▸ few, ?_⟩
  · simp [b, DispatchAnswer.bytes]
  · simp [b, DispatchAnswer.bytes]
    omega
  · simp [b, DispatchAnswer.bytes]
    omega
  · simp [b, DispatchAnswer.bytes, field]
    omega
  · simp [b, DispatchAnswer.bytes]

theorem PrintAnswer.bytes_fields (a : PrintAnswer) :
    let b := a.bytes
    b.length = 16 ∧ half b 0 = a.piece % 65536 ∧
      (∀ x y die, a.action = .print x y die → (byteAt b 2).toNat = 1 ∧ (byteAt b 3).toNat = 0 ∧ half b 4 = x % 65536 ∧
        half b 6 = y % 65536 ∧ (byteAt b 8).toNat = die % 256) ∧
      (∀ why, a.action = .skip why → (byteAt b 2).toNat = 2 ∧ (byteAt b 3).toNat = why.code ∧ half b 4 = 0 ∧
        half b 6 = 0 ∧ (byteAt b 8).toNat = 0) ∧
      (∀ i, 9 ≤ i → byteAt b i = 0) := by
  refine ⟨a.length_bytes, ?_, fun x y die h => ?_, fun why h => ?_, fun i hi => ?_⟩
  · simp [PrintAnswer.bytes]
  · simp [PrintAnswer.bytes, h, PrintAction.code, PrintAction.reasonCode]
  · have := why.code_lt
    simp [PrintAnswer.bytes, h, PrintAction.code, PrintAction.reasonCode]
    omega
  · unfold PrintAnswer.bytes
    extract_lets pos
    rw [byteAt_append_right (by simp; omega)]
    exact byteAt_bytesOfNum_zero 7 _

/-! ### Piece record (section 10.6) -/

namespace PieceRecord

variable (p : PieceRecord)

theorem bytes_words : word (bytes p) 0 = p.seq.toNat ∧
    word (bytes p) 4 = p.piece % 65536 + 65536 * (p.trayNumber.toNat % 256) + 16777216 * (p.generation % 256) ∧
    word (bytes p) 8 = p.word2 ∧ word (bytes p) 12 = p.word3 % 4294967296 ∧ word (bytes p) 16 = p.word4 ∧
    word (bytes p) 20 = p.word5 ∧ word (bytes p) 24 = p.faceSide.word ∧ word (bytes p) 28 = p.backSide.word := by
  have := p.word2_lt
  have := p.word4_lt
  have := p.word5_lt
  have := p.faceSide.bits_word.1
  have := p.backSide.bits_word.1
  have := p.seq.isLt
  simp [bytes, field]
  omega

end PieceRecord

/-! ### Tray record (section 10.7) -/

theorem exists_mem_toList_iff {α : Type} {n : Nat} {v : Vector α n} {P : α → Prop} :
    (∃ b ∈ v.toList, P b) ↔ ∃ i : Fin n, P v[i] := by
  have none := forall_mem_toList_iff (v := v) (P := fun b => ¬P b)
  exact not_iff_not.mp (by simpa only [not_exists, not_and] using none)

/-- R144: the mark that one of the twelve counters stands at its top. -/
theorem countsSaturated_iff {counts : Counts} :
    countsSaturated counts = true ↔ ∃ k : Fin 12, counts[k] = 4294967295 := by
  simp only [countsSaturated, List.any_eq_true, decide_eq_true_eq]
  exact exists_mem_toList_iff

/-- A block of twelve counters between other bytes. -/
theorem word_counts_between {a b : List Byte} {counts : Counts} {i : Nat} (k : Fin 12) (h : i = a.length + 4 * k.val) :
    word (a ++ countsBytes counts ++ b) i = counts[k] % 4294967296 := by
  have := k.isLt
  rw [word_append_left (by simp; omega), word_append_right (by omega), ← word_countsBytes]
  congr 1
  omega

theorem TrayRecord.bytes_fields (t : TrayRecord) :
    let b := TrayRecord.bytes t
    b.length = 128 ∧ word b 0 = t.data.trayNumber.toNat ∧ (byteAt b 4).toNat = t.data.reason.code ∧
      (byteAt b 5).toNat = t.data.mark.code ∧
      (byteAt b 6).toNat = (if ∃ k : Fin 12, t.counts[k] = 4294967295 then 1 else 0) ∧ byteAt b 7 = 0 ∧
      word b 8 = t.data.recordSeq.toNat ∧ word b 12 = min ((t.counts.toList.take 11).sum) 4294967295 ∧
      (∀ k : Fin 12, word b (16 + 4 * k.val) = t.counts[k] % 4294967296) ∧ (∀ i, 64 ≤ i → byteAt b i = 0) := by
  have reason := t.data.reason.code_lt
  have sealMark := t.data.mark.code_lt
  refine ⟨t.length_bytes, ?_, ?_, ?_, ?_, ?_, ?_, ?_, fun k => ?_, fun i hi => ?_⟩
  · simpa [bytes] using t.data.trayNumber.isLt
  · simp [bytes]
    omega
  · simp [bytes]
    omega
  · simp only [← countsSaturated_iff]
    cases h : countsSaturated t.counts <;> simp [bytes, h, mark]
  · simp [bytes]
  · simpa [bytes] using t.data.recordSeq.isLt
  · simp [bytes, piecesInTray, counterMax]
  · exact word_counts_between k (by simp)
  · rw [bytes, byteAt_append_right (by simpa using hi)]
    exact byteAt_bytesOfNum_zero 64 _

/-! ### Live window (section 10.8) -/

theorem OtherBank.code_lt (b : OtherBank) : b.code < 4 := by cases b <;> simp [OtherBank.code]

namespace TallyUnit

variable (t : TallyUnit)

/-- Byte 11 from bit 0: the states of banks A and B, 1 being ACTIVE. -/
def banksPart : Nat :=
  match t.active with
  | .a => 1 + 4 * t.other.code
  | .b => t.other.code + 4

/-- Byte 11 from bit 4: presence, reason and mark of the pending close. -/
def pendingPart : Nat :=
  match t.pending with
  | some p => 1 + 2 * p.reason.code + 8 * (if p.merged = true then 1 else 0)
  | none => 0

theorem banksPart_lt : t.banksPart < 16 := by
  have := t.other.code_lt
  unfold banksPart
  split <;> omega

theorem pendingPart_lt : t.pendingPart < 16 := by
  unfold pendingPart
  split
  · rename_i p _
    have := p.reason.code_lt
    split <;> omega
  · decide

theorem byte11_eq : t.byte11 = t.banksPart + 16 * t.pendingPart := by
  unfold byte11
  refine congrArg₂ (· + ·) ?_ ?_
  · have := t.other.code_lt
    unfold banksPart
    cases t.active with
    | a =>
      simp only [field]
      omega
    | b =>
      simp only [field]
      omega
  · unfold pendingPart
    cases t.pending with
    | none => rfl
    | some p =>
      have := p.reason.code_lt
      simp only [field, mark, if_true]
      split <;> omega

theorem bits_byte11 : t.byte11 < 256 ∧ bits t.byte11 0 4 = t.banksPart ∧ bits t.byte11 4 4 = t.pendingPart := by
  have := t.banksPart_lt
  have := t.pendingPart_lt
  simp only [bits, byte11_eq]
  omega

/-- R134: the pending close in byte 11. -/
theorem bits_byte11_pending {p : Pending} (h : t.pending = some p) : bits t.byte11 4 1 = 1 ∧
    bits t.byte11 5 2 = p.reason.code ∧ bits t.byte11 7 1 = (if p.merged = true then 1 else 0) := by
  obtain ⟨-, -, part⟩ := t.bits_byte11
  have := p.reason.code_lt
  rw [← bits_bits (lo := 4) (a := 0) (W := 4) (by decide), ← bits_bits (lo := 4) (a := 1) (W := 4) (by decide),
    ← bits_bits (lo := 4) (a := 3) (W := 4) (by decide), part]
  simp only [pendingPart, h, bits]
  split <;> omega

/-- R125: the banks in byte 11. -/
theorem bits_byte11_banks :
    (t.active = .a → bits t.byte11 0 2 = 1 ∧ bits t.byte11 2 2 = t.other.code) ∧
      (t.active = .b → bits t.byte11 0 2 = t.other.code ∧ bits t.byte11 2 2 = 1) := by
  obtain ⟨-, part, -⟩ := t.bits_byte11
  have := t.other.code_lt
  rw [← bits_bits (lo := 0) (a := 0) (W := 4) (by decide), ← bits_bits (lo := 0) (a := 2) (W := 4) (by decide), part]
  refine ⟨fun h => ?_, fun h => ?_⟩
  · simp only [banksPart, h, bits]
    omega
  · simp only [banksPart, h, bits]
    omega

theorem byte11_lt_of_no_pending (h : t.pending = none) : t.byte11 < 16 := by
  have := t.banksPart_lt
  simp only [byte11_eq, pendingPart, h]
  omega

end TallyUnit

namespace State

variable (s : State)

theorem liveBytes_bytes :
    byteAt s.liveBytes 6 = BitVec.ofNat 8 (field 0 2 s.heldNumbers.length + mark 2 s.gens.dirty + mark 3 s.trays.dirty) ∧
    byteAt s.liveBytes 7 = BitVec.ofNat 8 s.gens.newest.number ∧
    byteAt s.liveBytes 8 = BitVec.ofNat 8 (s.heldNumbers.getD 0 0) ∧
    byteAt s.liveBytes 9 = BitVec.ofNat 8 (s.heldNumbers.getD 1 0) ∧
    byteAt s.liveBytes 10 =
      BitVec.ofNat 8 (mark 0 s.cancel.suspended + mark 1 s.cancel.held + field 2 2 s.cancel.misprints) ∧
    byteAt s.liveBytes 11 = BitVec.ofNat 8 s.tally.byte11 := by
  unfold liveBytes
  extract_lets held
  simp only [List.append_assoc]
  simp [held]

theorem liveBytes_words : word s.liveBytes 12 = s.tally.trayNumber.toNat ∧
    word s.liveBytes 24 = s.tally.opened % 4294967296 ∧ word s.liveBytes 28 = s.report.seq.toNat := by
  have tray := s.tally.trayNumber.isLt
  have seq := s.report.seq.isLt
  unfold liveBytes
  extract_lets held
  simp only [List.append_assoc]
  simp
  omega

theorem liveBytes_lanes (l : Lane) : byteAt s.liveBytes (16 + 2 * l.code) = BitVec.ofNat 8 (s.lane l).state.code ∧
    byteAt s.liveBytes (17 + 2 * l.code) = BitVec.ofNat 8 (s.lane l).credits := by
  unfold liveBytes
  extract_lets held
  simp only [List.append_assoc]
  cases l <;> simp [Lane.code, LaneUnit.bytes, lane, PerLane.get]

theorem liveBytes_counts (k : Fin 12) : word s.liveBytes (32 + 4 * k.val) = s.tally.counts[k] % 4294967296 ∧
    word s.liveBytes (80 + 4 * k.val) = s.tally.totals[k] % 4294967296 := by
  have := k.isLt
  unfold liveBytes
  extract_lets held
  refine ⟨?_, ?_⟩
  · rw [List.append_assoc (_ ++ _)]
    exact word_counts_between k (by simp)
  · exact word_counts_between k (by simp)

theorem liveBytes_tail {i : Nat} (h : 128 ≤ i) : byteAt s.liveBytes i = 0 := by
  unfold liveBytes
  extract_lets held
  rw [byteAt_append_right (by simpa using h)]
  exact byteAt_bytesOfNum_zero 128 _

end State

end Sys2Proof.Machine
end

section
/-! PROOF. O54, continued: the parts of a piece record by their fields, and the formats together. -/
namespace Sys2Proof.Machine

namespace PieceRecord

variable (p : PieceRecord)

theorem decision_fields : (p.decision = none → bits p.word2 4 5 = 0) ∧
    ∀ k o, p.decision = some (k, o) → bits p.word2 4 2 = k.code ∧ bits p.word2 6 3 = o.code := by
  obtain ⟨-, part, -⟩ := p.bits_word2
  refine ⟨fun h => by rw [part, decisionPart, h], fun k o h => ?_⟩
  have := k.code_lt
  have := o.code_lt
  rw [← bits_bits (lo := 4) (a := 0) (W := 5) (by decide), ← bits_bits (lo := 4) (a := 2) (W := 5) (by decide), part]
  simp only [decisionPart, h, bits]
  omega

theorem dispatch_fields : (p.dispatch = none → bits p.word2 9 11 = 0) ∧
    ∀ k t st, p.dispatch = some (k, t, st) → bits p.word2 9 1 = 1 ∧ bits p.word2 10 3 = k.code.val ∧
      bits p.word2 13 3 = t.code ∧ bits p.word2 16 4 = st % 16 := by
  obtain ⟨-, -, part, -⟩ := p.bits_word2
  refine ⟨fun h => by rw [part, dispatchPart, h], fun k t st h => ?_⟩
  have := k.code.isLt
  have := t.code_lt
  rw [← bits_bits (lo := 9) (a := 0) (W := 11) (by decide), ← bits_bits (lo := 9) (a := 1) (W := 11) (by decide),
    ← bits_bits (lo := 9) (a := 4) (W := 11) (by decide), ← bits_bits (lo := 9) (a := 7) (W := 11) (by decide), part]
  simp only [dispatchPart, h, bits]
  omega

theorem stacker_fields : (p.stacker = none → bits p.word2 20 5 = 0) ∧
    ∀ st, p.stacker = some st → bits p.word2 20 1 = 1 ∧ bits p.word2 21 4 = st % 16 := by
  obtain ⟨-, -, -, part, -⟩ := p.bits_word2
  refine ⟨fun h => by rw [part, stackerPart, h], fun st h => ?_⟩
  rw [← bits_bits (lo := 20) (a := 0) (W := 5) (by decide), ← bits_bits (lo := 20) (a := 1) (W := 5) (by decide), part]
  simp only [stackerPart, h, bits]
  omega

theorem winner_fields :
    (p.winner = none → bits p.word2 25 6 = 0 ∧ p.word3 % 4294967296 = 0 ∧ bits p.word4 0 19 = 0) ∧
    ∀ w, p.winner = some w → bits p.word2 25 1 = 1 ∧ bits p.word2 26 3 = w.corner.val ∧
      bits p.word2 29 2 = w.cls.code ∧ bits (p.word3 % 4294967296) 0 16 = w.score % 65536 ∧
      bits (p.word3 % 4294967296) 16 16 = p.overHits % 65536 ∧ bits p.word4 0 10 = w.xc % 1024 ∧
      bits p.word4 10 9 = w.yc % 512 := by
  obtain ⟨-, -, -, -, part, -⟩ := p.bits_word2
  obtain ⟨centre, -⟩ := p.bits_word4
  refine ⟨fun h => ⟨by rw [part, winnerPart, h], by simp [word3, h], by rw [centre, centrePart, h]⟩, fun w h => ?_⟩
  have := w.corner.isLt
  have := w.cls.code_lt
  rw [← bits_bits (lo := 25) (a := 0) (W := 6) (by decide), ← bits_bits (lo := 25) (a := 1) (W := 6) (by decide),
    ← bits_bits (lo := 25) (a := 4) (W := 6) (by decide), part,
    ← bits_bits (n := p.word4) (lo := 0) (a := 0) (W := 19) (by decide),
    ← bits_bits (n := p.word4) (lo := 0) (a := 10) (W := 19) (by decide), centre]
  simp only [winnerPart, centrePart, word3, field, h, bits]
  omega

theorem position_fields :
    (p.position = none → bits p.word2 31 1 = 0 ∧ bits p.word4 19 10 = 0 ∧ bits p.word5 0 9 = 0) ∧
    ∀ x y, p.position = some (x, y) → bits p.word2 31 1 = 1 ∧ bits p.word4 19 10 = x % 1024 ∧
      bits p.word5 0 9 = y % 512 := by
  obtain ⟨-, -, -, -, -, presence⟩ := p.bits_word2
  obtain ⟨-, x, -⟩ := p.bits_word4
  obtain ⟨y, -⟩ := p.bits_word5
  rw [presence, x, y]
  refine ⟨fun h => ?_, fun a b h => ?_⟩
  · simp [positionPart, xPart, yPart, h]
  · simp [positionPart, xPart, yPart, h]

theorem printStatus_fields : (p.printStatus = none → bits p.word4 29 3 = 0) ∧
    ∀ st, p.printStatus = some st → bits p.word4 29 3 = st.code := by
  obtain ⟨-, -, part⟩ := p.bits_word4
  rw [part]
  exact ⟨fun h => by rw [statusPart, h], fun st h => by rw [statusPart, h]⟩

theorem print_fields : (p.print = none → bits p.word5 9 6 = 0) ∧
    (∀ x y die, p.print = some (.print x y die) → bits p.word5 9 2 = 1 ∧ bits p.word5 11 4 = 0) ∧
    ∀ why, p.print = some (.skip why) → bits p.word5 9 2 = 2 ∧ bits p.word5 11 4 = why.code := by
  obtain ⟨-, part, -⟩ := p.bits_word5
  rw [← bits_bits (lo := 9) (a := 0) (w := 2) (W := 6) (by decide), ← bits_bits (lo := 9) (a := 2) (w := 4) (W := 6) (by decide),
    part]
  refine ⟨fun h => by rw [printPart, h], fun x y die h => ?_, fun why h => ?_⟩
  · simp only [printPart, h, PrintAction.code, PrintAction.reasonCode, bits]
    decide
  · have := why.code_lt
    simp only [printPart, h, PrintAction.code, PrintAction.reasonCode, bits]
    omega

end PieceRecord

/-- Section 10.6 words 6 and 7, bit by bit. -/
theorem SideRecord.word_fields (r : SideRecord) : bits r.word 0 3 = r.state.code ∧ bits r.word 3 11 = r.n % 2048 ∧
    bits r.word 14 8 = min r.faulted 255 ∧ bits r.word 22 9 = r.maxExtent % 512 ∧ bits r.word 31 1 = 0 := by
  obtain ⟨few, state, n, faulted, extent⟩ := r.bits_word
  refine ⟨state, n, faulted, extent, ?_⟩
  simp only [bits]
  omega

/-- Settles O54: format by format, each part of a word read back from its place. -/
theorem formatsPlaceTheirFields : Obligations.FormatsPlaceTheirFields := by
  refine ⟨Header.ofBytes_fields, DispatchAnswer.bytes_fields, PrintAnswer.bytes_fields, fun p => ?_, fun e d seq tray => ?_,
    TrayRecord.bytes_fields, fun s => ?_, by decide⟩
  · obtain ⟨w0, w1, w2, w3, w4, w5, w6, w7⟩ := p.bytes_words
    have generation := Nat.mod_lt p.generation (y := 256) (by decide)
    intro b
    rw [w0, w1, w2, w3, w4, w5, w6, w7]
    refine ⟨p.length_bytes, rfl, ?_, ?_, ?_, p.bits_word2.1, p.decision_fields.1, p.decision_fields.2, p.dispatch_fields.1,
      p.dispatch_fields.2, p.stacker_fields.1, p.stacker_fields.2, p.winner_fields.1, p.winner_fields.2,
      p.position_fields.1, p.position_fields.2, p.printStatus_fields.1, p.printStatus_fields.2, p.print_fields.1,
      p.print_fields.2.1, p.print_fields.2.2, p.bits_word5.2.2, p.faceSide.word_fields, p.backSide.word_fields⟩
    · simp only [bits]
      omega
    · simp only [bits]
      omega
    · simp only [bits]
      omega
  · rw [Entry.record]
    cases h : e.decision.bind Decision.winner <;> rfl
  · intro b held other banks
    have code : other = s.tally.other.code := by cases h : s.tally.other <;> simp [other, h, OtherBank.code]
    obtain ⟨b6, b7, b8, b9, b10, b11⟩ := s.liveBytes_bytes
    obtain ⟨w12, w24, w28⟩ := s.liveBytes_words
    have hbanks : banks = s.tally.byte11 := by
      show (byteAt s.liveBytes 11).toNat = _
      rw [b11, toNat_ofNat_of_lt s.tally.bits_byte11.1]
    obtain ⟨held6, gens, trays, few6⟩ := fieldThenMarks s.heldNumbers.length s.gens.dirty s.trays.dirty
    obtain ⟨suspended, cancelHeld, misprints, few10⟩ := marksThenField s.cancel.suspended s.cancel.held s.cancel.misprints
    rw [code, hbanks, b6, b7, b8, b9, b10, w12, w24, w28]
    refine ⟨held6, gens, trays, few6, BitVec.toNat_ofNat _ 8, BitVec.toNat_ofNat _ 8, BitVec.toNat_ofNat _ 8, suspended,
      cancelHeld, misprints, few10, s.tally.bits_byte11_banks.1, s.tally.bits_byte11_banks.2,
      s.tally.byte11_lt_of_no_pending, fun q => s.tally.bits_byte11_pending, rfl, fun l => ?_, rfl, rfl,
      s.liveBytes_counts, fun i => s.liveBytes_tail⟩
    obtain ⟨state, credits⟩ := s.liveBytes_lanes l
    have := (s.lane l).state.code_lt
    rw [state, credits]
    exact ⟨toNat_ofNat_of_lt (by omega), BitVec.toNat_ofNat _ 8⟩

end Sys2Proof.Machine
end

section
/-! SUPPORT. What the commands leave of the captured placement, of the set flags and of the held requests (R148, R159,
R165): `exec_cases` says it once of all of them, requests, pin reset, CLRS and RESTART apart. -/

namespace Sys2Proof.Machine

/-- R148, R159: the setup base stands, and a memory map and a source table once captured. -/
structure PlacementFrame (s t : State) : Prop where
  straps  : t.setup.straps = s.setup.straps
  map     : ∀ m, s.setup.map = some m → t.setup.map = some m
  sources : ∀ x, s.setup.sources = some x → t.setup.sources = some x

theorem PlacementFrame.of_setup {s t : State} (h : t.setup = s.setup) : PlacementFrame s t :=
  ⟨by rw [h], fun _ hm => h ▸ hm, fun _ hx => h ▸ hx⟩

theorem PlacementFrame.refl (s : State) : PlacementFrame s s := .of_setup rfl

theorem PlacementFrame.trans {s t u : State} (h : PlacementFrame s t) (k : PlacementFrame t u) : PlacementFrame s u :=
  ⟨k.straps.trans h.straps, fun m hm => k.map m (h.map m hm), fun x hx => k.sources x (h.sources x hx)⟩

/-- What an event that clears no flag leaves: the placement, the set flags, and the requests held at the U-port. -/
structure EventFrame (s t : State) : Prop where
  placement : PlacementFrame s t
  flags     : s.KeepsFlags t
  held      : t.path.held = s.path.held

theorem EventFrame.trans {s t u : State} (h : EventFrame s t) (k : EventFrame t u) : EventFrame s u :=
  ⟨h.placement.trans k.placement, h.flags.trans k.flags, k.held.trans h.held⟩

/-- Setup unit, status and held requests as they were. -/
theorem EventFrame.of_same {s t : State} (hs : t.setup = s.setup) (hf : t.status = s.status)
    (hh : t.path.held = s.path.held) : EventFrame s t :=
  ⟨.of_setup hs, .of_status hf, hh⟩

theorem EventFrame.refl (s : State) : EventFrame s s := .of_same rfl rfl rfl

theorem StatusFrame.event {s t : State} (h : StatusFrame s t) : EventFrame s t :=
  ⟨.of_setup h.setup, h.flags, by rw [h.path]⟩

theorem TrackFrame.event {s t : State} (h : TrackFrame s t) : EventFrame s t := h.status.event

/-! ### Records and directives, one by one -/

theorem State.refuse_event (s : State) (r : RefusalReason) : EventFrame s (s.refuse r) :=
  ⟨.of_setup (by simp), s.keepsFlags_refuse r, by simp⟩

theorem State.raise_event (s : State) (f : Flag) : EventFrame s (s.raise f) := (s.raise_track f).event

theorem State.stage_event (s : State) (f : Settings → Settings) : EventFrame s (s.stage f) := by
  refine .of_same (s.stage_setup f) ?_ (by rw [s.stage_path f])
  unfold State.stage
  simp only []
  split <;> rfl

/-- R159: a memory map is captured where none is. -/
theorem State.takeMemoryMap_event (s : State) (m : MemoryMapRecord) : EventFrame s (s.takeMemoryMap m) := by
  unfold State.takeMemoryMap
  split
  · exact s.refuse_event _
  · split
    · exact s.refuse_event _
    · rename_i hnone
      split
      · exact s.refuse_event _
      · split
        · exact s.refuse_event _
        · exact ⟨⟨rfl, fun n hn => absurd (by simp [hn]) hnone, fun _ hx => hx⟩, .of_status rfl, rfl⟩

/-- R159: a source table is captured where none is. -/
theorem State.takeSourceTable_event (s : State) (m : SourceTableRecord) : EventFrame s (s.takeSourceTable m) := by
  unfold State.takeSourceTable
  split
  · exact s.refuse_event _
  · split
    · exact s.refuse_event _
    · rename_i hnone
      split
      · exact s.refuse_event _
      · exact ⟨⟨rfl, fun _ hm => hm, fun x hx => absurd (by simp [hx]) hnone⟩, .of_status rfl, rfl⟩

theorem State.takeLaneMap_event (s : State) (m : LaneMapRecord) : EventFrame s (s.takeLaneMap m) := by
  unfold State.takeLaneMap
  split
  · exact ⟨⟨rfl, fun _ h => h, fun _ h => h⟩, .of_status rfl, rfl⟩
  · exact s.refuse_event _

theorem State.takeAlarm_event (s : State) (mask : BitVec 16) : EventFrame s (s.takeAlarm mask) :=
  ⟨⟨rfl, fun _ h => h, fun _ h => h⟩, .of_status rfl, rfl⟩

theorem State.takeCorrection_event (s : State) (m : CorrectionRecord) : EventFrame s (s.takeCorrection m) := by
  unfold State.takeCorrection
  split
  · exact s.stage_event _
  · exact s.refuse_event _

theorem State.takeClassTest_event (s : State) (m : ClassTestRecord) : EventFrame s (s.takeClassTest m) := by
  unfold State.takeClassTest
  split
  · exact s.stage_event _
  · exact s.refuse_event _

theorem State.takeGeometry_event (s : State) (m : GeometryRecord) : EventFrame s (s.takeGeometry m) := by
  unfold State.takeGeometry
  split
  · exact s.stage_event _
  · exact s.refuse_event _

theorem State.takeDecision_event (s : State) (m : DecisionRecord) : EventFrame s (s.takeDecision m) := by
  unfold State.takeDecision
  split
  · exact s.stage_event _
  · exact s.refuse_event _

theorem State.takeTraySet_event (s : State) (m : TraySetRecord) : EventFrame s (s.takeTraySet m) := by
  unfold State.takeTraySet
  split
  · split <;> exact .of_same rfl rfl rfl
  · exact s.refuse_event _

/-- R81: RUN, taken or refused with RUN_REFUSED. -/
theorem State.directRun_event (s : State) : EventFrame s s.directRun := by
  unfold State.directRun
  split
  · exact .refl s
  · exact .of_same rfl rfl rfl
  · split
    · exact .of_same rfl rfl rfl
    · exact ⟨.of_setup rfl, fun _ hf => (s.keepsFlags_raise .runRefused) _ hf, rfl⟩

theorem State.directDrain_event (s : State) : EventFrame s s.directDrain := by
  unfold State.directDrain
  split
  · exact EventFrame.trans (t := { s with mode := .drain }) (.of_same rfl rfl rfl) (State.drainEndIfDue_track _).event
  · exact s.refuse_event _

theorem State.closeLaneIfDue_event (s : State) (l : Lane) : EventFrame s (s.closeLaneIfDue l) := by
  unfold State.closeLaneIfDue
  split
  · exact .of_same rfl rfl rfl
  · exact .refl s

theorem State.setLane_event (s : State) (l : Lane) (u : LaneUnit) : EventFrame s (s.setLane l u) := .of_same rfl rfl rfl

theorem State.directLopen_event (s : State) (operand : BitVec 8) : EventFrame s (s.directLopen operand) := by
  unfold State.directLopen State.openLaneDirective
  split
  · split
    · exact .of_same rfl rfl rfl
    · exact s.refuse_event _
  · exact s.refuse_event _

theorem State.directLclose_event (s : State) (operand : BitVec 8) : EventFrame s (s.directLclose operand) := by
  unfold State.directLclose State.closeLaneDirective
  split
  · split
    · exact (s.setLane_event _ _).trans (State.closeLaneIfDue_event _ _)
    · exact s.refuse_event _
  · exact s.refuse_event _

/-- R163: RESTART clears the flags, and nothing of the placement. -/
theorem State.directRestart_placement (s : State) : PlacementFrame s s.directRestart := by
  unfold State.directRestart
  split
  · exact .of_setup rfl
  · exact (s.refuse_event _).placement

/-! ### Events of the path unit -/

theorem State.takeGrant_event (s : State) (l : Lane) (n : Nat) : EventFrame s (s.takeGrant l n) := by
  unfold State.takeGrant
  split
  · split
    · exact (s.setLane_event _ _).trans (State.raise_event _ _)
    · exact s.setLane_event _ _
  · exact .refl s

theorem State.takeCredit_event (s : State) (l : Lane) (k : Nat) : EventFrame s (s.takeCredit l k) := by
  unfold State.takeCredit
  split
  · exact s.setLane_event _ _
  · exact s.setLane_event _ _
  · exact .refl s

theorem State.issueForward_event (s : State) (l : UpLane) : EventFrame s (s.issueForward l) := by
  unfold State.issueForward
  split
  · exact .refl s
  · exact .of_same (by simp) (by simp) (by simp [State.send, State.sendDown, State.setQueue, State.charge, State.setLane])

theorem State.issueInjected_event (s : State) : EventFrame s s.issueInjected := by
  have spend : ∀ t : State, t.spendFree.status = t.status ∧ t.spendFree.path = t.path := fun t => by
    unfold State.spendFree
    split <;> exact ⟨rfl, rfl⟩
  refine .of_same s.issueInjected_setup ?_ ?_
  all_goals
    unfold State.issueInjected
    split
    · rfl
    · split
      · rfl
      · simp [State.send, State.sendDown, State.charge, State.setLane, spend]

/-- R136, R141: the answer to a record, which raises REPORT_FAULT at most. -/
theorem State.recordAnswered_event (s : State) (tag : Nat) (st : Status) : EventFrame s (s.recordAnswered tag st) := by
  refine ⟨.of_setup (s.recordAnswered_setup tag st), ?_, by rw [s.recordAnswered_path tag st]⟩
  obtain he | ⟨c, older, younger, -, he⟩ := s.recordAnswered_cases tag st
  · rw [he]
    exact .refl s
  · rw [he]
    have raised := State.keepsFlags_raiseIf
      { s with report := { s.report with queue := older ++ younger } } (decide (st = .err)) .reportFault
    refine State.KeepsFlags.trans (t := s.recordGone (older ++ younger) st) raised (.of_status ?_)
    cases c <;> simp [State.releaseBank]

theorem State.takeResponse_event (s : State) (source : BitVec 4) (tag : BitVec 8) (st : Status) (data : List Byte) :
    EventFrame s (s.takeResponse source tag st data) := by
  have deliver : ∀ (t : State) (i : Issued), EventFrame t (t.deliver i st data) := fun t i => by
    unfold State.deliver
    split
    · exact t.recordAnswered_event _ _
    · exact .refl t
    · split <;> exact .of_same rfl rfl rfl
  unfold State.takeResponse
  split
  · rename_i q _
    have settled : EventFrame s (s.settleIssued q.1 q.2) := .of_same rfl rfl rfl
    exact (settled.trans (deliver _ q.1)).trans (State.closeLaneIfDue_event _ _)
  · split
    · exact .refl s
    · exact .of_same rfl rfl rfl

/-- R177 to R179: an issue; the place it frees may let held requests in. -/
theorem State.issueNext_cases (s : State) :
    ∃ t, EventFrame s t ∧ (s.issueNext = t ∨ s.issueNext = t.settleHeld) := by
  unfold State.issueNext
  split
  · rename_i l _
    cases l with
    | img => exact ⟨_, s.issueForward_event .img, .inr rfl⟩
    | ctl => exact ⟨_, s.issueForward_event .ctl, .inr rfl⟩
    | blk => exact ⟨_, s.issueForward_event .blk, .inr rfl⟩
    | rpt => exact ⟨_, s.issueInjected_event, .inl rfl⟩
  · exact ⟨s, .refl s, .inl rfl⟩

/-- What a command does: pin reset; the presentation of a request; a clearing of the flags that leaves the placement; or an
event that clears no flag, after which held requests may arrive. -/
inductive CommandDoes (c : Instr) (s : State) : Prop
  | resets (straps : BitVec 16) (h : c = .pinReset straps)
  | presents (r : Request) (h : requestOf c = some r) (he : exec c s = .next (s.present r))
  | clears (t : State) (h : c = .clrs ∨ c = .restart) (hp : PlacementFrame s t) (he : exec c s = .next t)
  | event (t : State) (h : EventFrame s t) (he : exec c s = .next t)
  | settles (t : State) (h : EventFrame s t) (he : exec c s = .next t.settleHeld)

theorem exec_cases (c : Instr) (s : State) : CommandDoes c s := by
  cases c with
  | pinReset straps => exact .resets straps rfl
  | requestPresentation r | requestArrival r | imageWrite r | setupWrite r | dispatchRead r | printRead r | liveRead r
  | exitWrite r | printStatusWrite r => exact .presents r rfl rfl
  | clrs => exact .clears s.clearStatus (.inl rfl) (.of_setup rfl) rfl
  | restart => exact .clears _ (.inr rfl) s.directRestart_placement rfl
  | heldRequestArrival => exact .settles s (.refl s) rfl
  | laneMap m => exact .settles _ (s.takeLaneMap_event m) rfl
  | issue =>
    obtain ⟨t, ht, he | he⟩ := s.issueNext_cases
    · exact .event t ht (congrArg Host.Outcome.next he)
    · exact .settles t ht (congrArg Host.Outcome.next he)
  | memoryMap m => exact .event _ (s.takeMemoryMap_event m) rfl
  | sourceTable m => exact .event _ (s.takeSourceTable_event m) rfl
  | alarm mask => exact .event _ (s.takeAlarm_event mask) rfl
  | correction m => exact .event _ (s.takeCorrection_event m) rfl
  | classTest m => exact .event _ (s.takeClassTest_event m) rfl
  | geometry m => exact .event _ (s.takeGeometry_event m) rfl
  | decision m => exact .event _ (s.takeDecision_event m) rfl
  | traySet m => exact .event _ (s.takeTraySet_event m) rfl
  | run => exact .event _ s.directRun_event rfl
  | drain => exact .event _ s.directDrain_event rfl
  | stby => exact .event _ s.directStby_track.event rfl
  | tclose => exact .event _ (s.requestClose_track .tclose).event rfl
  | csusp => exact .event s.suspend (.of_same rfl rfl rfl) rfl
  | cres => exact .event s.resume (.of_same rfl rfl rfl) rfl
  | crel => exact .event s.releaseHold (.of_same rfl rfl rfl) rfl
  | lopen operand => exact .event _ (s.directLopen_event operand) rfl
  | lclose operand => exact .event _ (s.directLclose_event operand) rfl
  | drainEnd => exact .event _ s.drainEndIfDue_track.event rfl
  | grant l n => exact .event _ (s.takeGrant_event l _) rfl
  | credit l k => exact .event _ (s.takeCredit_event l _) rfl
  | drop l => exact .event _ ((s.setLane_event l _).trans (State.raise_event _ _)) rfl
  | response source tag st data => exact .event _ (s.takeResponse_event source tag st data) rfl
  | pendingClose => exact .event s.settlePending (.of_same (by simp) (by simp) (by simp)) rfl
  | trayRecordJoining => exact .event s.joinTrayRecord (.of_same (by simp) (by simp) (by simp)) rfl
  | close l => exact .event _ (s.closeLaneIfDue_event l) rfl

end Sys2Proof.Machine
end

section
/-! PROOF. O3: nothing but pin reset changes the setup base, or a memory map or source table once captured (R148, R159). -/

namespace Sys2Proof.Machine

/-! ### Captures and arrivals -/

theorem State.takeDirective_placement (s : State) (code operand : BitVec 8) :
    PlacementFrame s (s.takeDirective code operand) := by
  unfold State.takeDirective
  split
  · exact s.directRun_event.placement
  · exact s.directDrain_event.placement
  · exact s.directStby_track.event.placement
  · exact .of_setup rfl
  · exact (s.requestClose_track .tclose).event.placement
  · exact .of_setup rfl
  · exact .of_setup rfl
  · exact .of_setup rfl
  · exact (s.directLopen_event operand).placement
  · exact (s.directLclose_event operand).placement
  · exact s.directRestart_placement
  · exact (s.refuse_event _).placement

/-- R150: a capture. -/
theorem State.takeRecord_placement (s : State) (bs : List Byte) : PlacementFrame s (s.takeRecord bs) := by
  unfold State.takeRecord
  split
  · exact (s.takeMemoryMap_event _).placement
  · exact (s.takeSourceTable_event _).placement
  · exact (s.takeLaneMap_event _).placement
  · exact s.takeDirective_placement _ _
  · exact (s.takeAlarm_event _).placement
  · exact (s.takeCorrection_event _).placement
  · exact (s.takeClassTest_event _).placement
  · exact (s.takeGeometry_event _).placement
  · exact (s.takeDecision_event _).placement
  · exact (s.takeTraySet_event _).placement
  · exact (s.refuse_event _).placement

section Arrival

variable {settle : State → State}

/-- R149, R150: one slot of a host write. -/
theorem State.takeSetupSlot_placement (hs : ∀ s, PlacementFrame s (settle s)) (r : Request) (s : State) (k : Nat) :
    PlacementFrame s (State.takeSetupSlot settle r s k) := by
  have shadowed : ∀ v, PlacementFrame s { s with setup := { s.setup with shadows := v } } := fun _ =>
    ⟨rfl, fun _ h => h, fun _ h => h⟩
  unfold State.takeSetupSlot State.capture
  simp only []
  split
  · split
    · exact ((shadowed _).trans (State.takeRecord_placement _ _)).trans (hs _)
    · exact (shadowed _).trans (State.takeRecord_placement _ _)
  · exact shadowed _

/-- R171: one part of a request; the setup area's alone can capture. -/
theorem State.takePart_placement (hs : ∀ s, PlacementFrame s (settle s)) (sources : Option SourceTable) (r : Request)
    (acc : State × FillPlan) (p : Nat × Part) : PlacementFrame acc.1 (State.takePart settle sources r acc p).1 := by
  unfold State.takePart
  split
  · unfold State.takeSetupWrite
    simp only []
    split
    · exact foldl_frame .refl (fun _ _ _ => .trans) (State.takeSetupSlot_placement hs r) _ _
    · exact (State.raise_event _ _).placement
  · exact (State.offerImage_track _ _ _ _ _).event.placement
  · exact (State.takeExitWrite_track _ _ _ _).event.placement
  · exact (State.takeStatusWrite_status _ _ _ _).event.placement
  · exact (State.takeDispatchRead_track _ _ _ _).event.placement
  · exact (State.takePrintRead_track _ _ _ _).event.placement
  · exact .refl _

theorem State.arrive_placement (hs : ∀ s, PlacementFrame s (settle s)) (l : UpLane) (r : Request) (s : State) :
    PlacementFrame s (s.arrive settle l r) := by
  have offered : ∀ t : State, PlacementFrame t (t.offer settle r).1 := fun t =>
    foldl_frame (R := fun a b : State × FillPlan => PlacementFrame a.1 b.1) (fun _ => .refl _) (fun _ _ _ => .trans)
      (State.takePart_placement hs _ r) _ (t, [])
  unfold State.arrive
  split
  · exact PlacementFrame.trans (t := s.enqueue l { request := r, plan := [] }) (.of_setup rfl) (offered _)
  · exact (offered s).trans (.of_setup rfl)

end Arrival

/-- R170: held requests, one after another. -/
theorem State.admitHeld_placement : ∀ (n : Nat) (s : State), PlacementFrame s (s.admitHeld n)
  | 0, s => .refl s
  | n + 1, s => by
    have ih := State.admitHeld_placement n
    have behind : ∀ (t : State) (c : BitVec 3), PlacementFrame t (t.presentBehind c) := fun t c => by
      unfold State.presentBehind
      split <;> exact .of_setup rfl
    unfold State.admitHeld
    split
    · exact .refl s
    · rename_i q _
      have taken : PlacementFrame s { s with path := { s.path with held := q.2 } } := .of_setup rfl
      exact ((taken.trans (behind _ q.1.classTag)).trans (State.arrive_placement ih _ q.1 _)).trans (ih _)

theorem State.settleHeld_placement (s : State) : PlacementFrame s s.settleHeld := s.admitHeld_placement _

/-- R168 to R170: a request presented at the U-port. -/
theorem State.present_placement (r : Request) (s : State) : PlacementFrame s (s.present r) := by
  unfold State.present
  split
  · exact .of_setup rfl
  · split
    · exact (State.arrive_placement State.settleHeld_placement _ r s).trans (State.settleHeld_placement _)
    · exact .of_setup rfl

/-- Settles O3, by what the commands do: a once-only record is taken where none is captured, and no other operation
touches the placement. -/
theorem placementLastsUntilPinReset : Obligations.PlacementLastsUntilPinReset := by
  intro c s t hc e
  have frame : PlacementFrame s t := by
    cases exec_cases c s with
    | resets straps h => exact absurd h (hc straps)
    | presents r _ he => exact Host.Outcome.next.inj (he.symm.trans e) ▸ s.present_placement r
    | clears u _ hp he => exact Host.Outcome.next.inj (he.symm.trans e) ▸ hp
    | event u h he => exact Host.Outcome.next.inj (he.symm.trans e) ▸ h.placement
    | settles u h he => exact Host.Outcome.next.inj (he.symm.trans e) ▸ h.placement.trans u.settleHeld_placement
  exact ⟨frame.straps, frame.map, frame.sources⟩

end Sys2Proof.Machine
end

section
/-! PROOF. O4: a set flag stays set through every command that may not clear flags (R165). -/

namespace Sys2Proof.Machine

/-! ### A request that does not touch the setup area (R148, R171) -/

theorem mem_insertPart {p q : Nat × Part} {l : List (Nat × Part)} : p ∈ insertPart q l ↔ p = q ∨ p ∈ l := by
  induction l with
  | nil => simp [insertPart]
  | cons x xs ih =>
    unfold insertPart
    split
    · exact List.mem_cons
    · rw [List.mem_cons, ih, List.mem_cons]
      tauto

theorem mem_orderParts {p : Nat × Part} {l : List (Nat × Part)} : p ∈ orderParts l ↔ p ∈ l := by
  induction l with
  | nil => simp [orderParts]
  | cons q qs ih => rw [orderParts, mem_insertPart, ih, List.mem_cons]

theorem mem_partIf {b : Bool} {base : Nat} {part : Part} {p : Nat × Part} :
    p ∈ partIf b base part ↔ b = true ∧ p = (base, part) := by
  cases b <;> simp [partIf]

/-- R148: only a request that touches the setup area has a part in it. -/
theorem part_ne_setup {u : SetupUnit} {r : Request} (h : reqTouches r (setupBase u.straps) 1024 = false) {p : Nat × Part}
    (hp : p ∈ partsOf u r) : p.2 ≠ .setup := by
  intro hs
  unfold partsOf at hp
  split at hp
  · cases hp
  · split at hp
    · split at hp <;> simp [mem_partIf, setupSize, h] at hp
      obtain ⟨-, rfl⟩ | ⟨-, rfl⟩ | ⟨-, rfl⟩ | ⟨-, rfl⟩ := hp <;> cases hs
    · split at hp <;> simp [mem_partIf] at hp
      obtain ⟨-, rfl⟩ | ⟨-, rfl⟩ | ⟨-, rfl⟩ := hp <;> cases hs

/-- R171: a part outside the setup area clears no flag. -/
theorem State.takePart_keepsFlags {settle : State → State} {sources : Option SourceTable} {r : Request}
    {acc : State × FillPlan} {p : Nat × Part} (h : p.2 ≠ .setup) :
    acc.1.KeepsFlags (State.takePart settle sources r acc p).1 := by
  unfold State.takePart
  split
  · contradiction
  · exact (State.offerImage_track _ _ _ _ _).flags
  · exact (State.takeExitWrite_track _ _ _ _).flags
  · exact (State.takeStatusWrite_status _ _ _ _).flags
  · exact (State.takeDispatchRead_track _ _ _ _).flags
  · exact (State.takePrintRead_track _ _ _ _).flags
  · exact .refl _

theorem State.offer_keepsFlags {settle : State → State} {r : Request} {s : State}
    (h : reqTouches r (setupBase s.setup.straps) 1024 = false) : s.KeepsFlags (s.offer settle r).1 :=
  List.foldlRecOn _ _ (motive := fun acc : State × FillPlan => s.KeepsFlags acc.1) (.refl s)
    fun _ kept _ hp => kept.trans (State.takePart_keepsFlags (part_ne_setup h (mem_orderParts.mp hp)))

/-- R168 to R171: with nothing held, a request outside the setup area arrives or is held, and clears no flag. -/
theorem State.present_keepsFlags {r : Request} {s : State} (hh : s.path.held = [])
    (h : reqTouches r (setupBase s.setup.straps) 1024 = false) : s.KeepsFlags (s.present r) := by
  cases hroom : s.hasRoom (s.laneOf r) with
  | false =>
    rw [State.present_held (by simp [hh]) hroom]
    exact .of_status rfl
  | true =>
    rw [State.present_accepted ⟨hh, hroom⟩]
    unfold State.arrive
    split
    · exact .trans (.of_status rfl) (State.offer_keepsFlags (s := s.enqueue (s.laneOf r) { request := r, plan := [] }) h)
    · exact (State.offer_keepsFlags h).trans (.of_status rfl)

/-- Settles O4, by what the commands do: events leave the set flags and let nothing in, where nothing is held; a request
clears flags by a capture in the setup area alone. -/
theorem flagsStaySet : Obligations.FlagsStaySet := by
  intro c s t hh hc e
  cases exec_cases c s with
  | resets straps h => exact absurd (.inl ⟨straps, h⟩) hc
  | presents r hr he =>
    have apart : reqTouches r (setupBase s.setup.straps) 1024 = false :=
      Bool.eq_false_iff.mpr fun h => hc (.inr (.inr (.inr ⟨r, hr, h⟩)))
    exact Host.Outcome.next.inj (he.symm.trans e) ▸ State.present_keepsFlags hh apart
  | clears u h => exact absurd (.inr (h.imp_right .inl)) hc
  | event u h he => exact Host.Outcome.next.inj (he.symm.trans e) ▸ h.flags
  | settles u h he =>
    have nothing : u.settleHeld = u := State.settleHeld_of_held_nil (h.held.trans hh)
    exact Host.Outcome.next.inj (he.symm.trans e) ▸ nothing.symm ▸ h.flags

end Sys2Proof.Machine
end

section
/-! PROOF. O16: requests that no window sees, and requests held at the U-port (R152, R168 to R171). -/

namespace Sys2Proof.Machine

/-! ### A request that no window sees (R168) -/

theorem partsOf_eq_nil {s : State} {r : Request} (h : s.UnseenByWindows r) : partsOf s.setup r = [] := by
  obtain hc | hs | hw := h
  · exact partsOf_outside _ (by simp [reqOutside, hc])
  · exact partsOf_outside _ (by simp [reqOutside, hs])
  · unfold partsOf
    cases ho : reqOutside r with
    | true => rfl
    | false =>
      cases hk : r.kind <;> rw [hk] at hw
      case read =>
        cases hm : s.setup.map with
        | none => rfl
        | some m =>
          obtain ⟨dispatch, print, live⟩ := hw m hm
          simp [partIf, dispatch, print, live]
      case write =>
        obtain ⟨area, windows⟩ := hw
        cases hm : s.setup.map with
        | none => simp [partIf, setupSize, area]
        | some m =>
          obtain ⟨rings, exit, status⟩ := windows m hm
          have face := rings .face
          have back := rings .back
          simp only [PerSide.get] at face back
          simp [partIf, setupSize, area, face, back, exit, status]

/-- R171: the arrival of a request that has no part in any window. -/
theorem State.arrive_unseen {s : State} {r : Request} (h : partsOf s.setup r = []) (settle : State → State) (l : UpLane) :
    s.arrive settle l r = s.enqueue l { request := r, plan := [] } := by
  unfold State.arrive
  split
  · rw [State.offer_of_no_parts (s := s.enqueue l { request := r, plan := [] }) _ h]
  · rw [State.offer_of_no_parts _ h]

/-- R169: the lane of a class tag from 1 on is the lane map's. -/
theorem State.laneOf_tag {s : State} {r : Request} {i : Fin 7} (h : r.classTag.toNat = i.val + 1) :
    s.laneOf r = s.setup.laneMap[i] := by
  have tagged : ¬ r.classTag = 0 := fun hz => by
    rw [hz] at h
    exact absurd h (by simp)
  rw [State.laneOf, if_neg tagged, h]
  simp

/-! ### Held requests (R170) -/

theorem State.present_behind {s : State} {r : Request} (h : ∃ q ∈ s.path.held, q.classTag = r.classTag) :
    s.present r = { s with path := { s.path with behind := s.path.behind ++ [r] } } := by
  unfold State.present
  exact if_pos (by simpa using h)

theorem takeFirst_eq_none {p : Request → Bool} {l : List Request} (h : ∀ r ∈ l, p r = false) : takeFirst p l = none := by
  induction l with
  | nil => rfl
  | cons r rs ih =>
    obtain ⟨hr, hrs⟩ := List.forall_mem_cons.mp h
    simp [takeFirst, hr, ih hrs]

/-- R170: while the lanes of all held requests are full, none arrives. -/
theorem State.settleHeld_of_full {s : State} (h : ∀ r ∈ s.path.held, s.hasRoom (s.laneOf r) = false) :
    s.settleHeld = s := by
  have none : s.nextAdmitted = none := takeFirst_eq_none h
  unfold State.settleHeld
  generalize s.path.held.length + s.path.behind.length = n
  cases n with
  | zero => rfl
  | succ n => rw [State.admitHeld, none]

/-- R170, R171: a sole held request that no window sees arrives once its lane has room. -/
theorem State.settleHeld_sole {s : State} {r : Request} (hheld : s.path.held = [r]) (hbehind : s.path.behind = [])
    (hroom : s.hasRoom (s.laneOf r) = true) (h : s.UnseenByWindows r) :
    s.settleHeld = ({ s with path := { s.path with held := [] } } : State).queued r [] := by
  have next : s.nextAdmitted = some (r, []) := by simp [State.nextAdmitted, hheld, takeFirst, hroom]
  have alone : ∀ c, State.presentBehind c { s with path := { s.path with held := [] } } =
      { s with path := { s.path with held := [] } } := fun c => by
    simp [State.presentBehind, hbehind, takeFirst]
  have fuel : s.path.held.length + s.path.behind.length = 1 := by simp [hheld, hbehind]
  rw [State.settleHeld, fuel, State.admitHeld, next]
  simp only [alone, State.admitHeld]
  exact State.arrive_unseen (s := { s with path := { s.path with held := [] } }) (partsOf_eq_nil h) _ _

/-- R152: the lane map that a record's bytes name. -/
theorem LaneMapRecord.map_of_codes {m : LaneMapRecord} {v : Vector UpLane 7}
    (h : ∀ i : Fin 7, v[i].toLane.code = m.lanes[i].toNat) : m.inRange = true ∧ m.map = v := by
  have byte : ∀ (l : UpLane) (b : BitVec 8), l.toLane.code = b.toNat → UpLane.ofByte b = some l := fun l b hb => by
    rw [UpLane.ofByte_eq, ← hb]
    cases l <;> rfl
  refine ⟨LaneMapRecord.inRange_iff.mpr fun i => ?_, Vector.ext fun i hi => ?_⟩
  · exact UpLane.isSome_ofByte.mp (by rw [byte _ _ (h i)]; rfl)
  · have hv := byte _ _ (h ⟨i, hi⟩)
    simp only [Fin.getElem_fin] at hv
    simp [LaneMapRecord.map, hv]

/-- Settles O16, by where a presented request goes: into its lane, among the held ones, or behind one of its class. -/
theorem requestIsQueuedOrHeld : Obligations.RequestIsQueuedOrHeld := by
  refine ⟨fun s r _ ha h => ?_, fun s r h => if_pos h, fun s r i h => State.laneOf_tag h, fun s r hc hf => ?_,
    fun s r h => ?_, fun s h => ?_, fun s r hheld hbehind hroom h => ?_, fun s r m v hheld hbehind hv hroom h => ?_⟩
  · have queued := State.present_unseen ha (partsOf_eq_nil h)
    exact ⟨congrArg Host.Outcome.next queued, congrArg Host.Outcome.next queued⟩
  · exact congrArg Host.Outcome.next (State.present_held hc hf)
  · exact congrArg Host.Outcome.next (State.present_behind h)
  · exact congrArg Host.Outcome.next (State.settleHeld_of_full h)
  · exact congrArg Host.Outcome.next (State.settleHeld_sole hheld hbehind hroom h)
  · obtain ⟨inRange, map⟩ := LaneMapRecord.map_of_codes hv
    have taken : s.takeLaneMap m = { s with setup := { s.setup with laneMap := v } } := by
      rw [State.takeLaneMap, if_pos inRange, map]
    exact congrArg Host.Outcome.next ((congrArg State.settleHeld taken).trans
      (State.settleHeld_sole hheld hbehind hroom h))

end Sys2Proof.Machine
end

section
/-! PROOF. O27: the once-only records are answered by the first check that fails (R151, R159 to R161). -/

namespace Sys2Proof.Machine

/-! ### The checks of a memory map (R160) -/

theorem MemoryMap.inRange_iff {m : MemoryMap} : m.inRange = true ↔
    8 ≤ m.rings.face.count ∧ 8 ≤ m.rings.back.count ∧ 16 ≤ m.pieceRing.count ∧ 4 ≤ m.trayRing.count ∧
      ∀ x ∈ m.extents, x.1 + x.2.1 ≤ 2 ^ 32 := by
  simp only [MemoryMap.inRange, Bool.and_eq_true, decide_eq_true_eq, List.all_eq_true, and_assoc]
  norm_num

/-- R160: the least counts leave no extent without a byte. -/
theorem MemoryMap.extents_pos {m : MemoryMap} (h : m.inRange = true) : ∀ x ∈ m.extents, 0 < x.2.1 := by
  obtain ⟨face, back, piece, tray, -⟩ := MemoryMap.inRange_iff.mp h
  simp only [MemoryMap.extents, List.forall_mem_cons]
  refine ⟨?_, ?_, ?_, ?_, ?_, ?_, ?_, ?_, ?_, by simp⟩ <;> omega

/-- Two spans that each hold a byte share none, or have one in common at the greater of their bases. -/
theorem spansMeet_eq_false_iff {a b : Nat × Nat} (ha : 0 < a.2) (hb : 0 < b.2) :
    spansMeet a b = false ↔ ∀ i, ¬(a.1 ≤ i ∧ i < a.1 + a.2 ∧ b.1 ≤ i ∧ i < b.1 + b.2) := by
  simp only [spansMeet, Bool.and_eq_false_iff, decide_eq_false_iff_not]
  constructor
  · intro h i
    omega
  · intro h
    have := h (max a.1 b.1)
    omega

/-- R148, R160: alignment, and no byte in two extents or in an extent and the setup area. -/
theorem MemoryMap.placed_iff {m : MemoryMap} (straps : BitVec 16) (h : m.inRange = true) : m.placed straps = true ↔
    (∀ x ∈ m.extents, x.2.2 ∣ x.1) ∧
      ((straps.toNat * 65536, 1024, 1) :: m.extents).Pairwise fun x y =>
        ∀ a, ¬(x.1 ≤ a ∧ a < x.1 + x.2.1 ∧ y.1 ≤ a ∧ a < y.1 + y.2.1) := by
  have pos : ∀ x ∈ (straps.toNat * 65536, 1024, 1) :: m.extents, 0 < x.2.1 :=
    List.forall_mem_cons.mpr ⟨by norm_num, MemoryMap.extents_pos h⟩
  have spans : (setupBase straps, setupSize) :: m.extents.map (fun x => (x.1, x.2.1)) =
      ((straps.toNat * 65536, 1024, 1) :: m.extents).map fun x => (x.1, x.2.1) := rfl
  rw [MemoryMap.placed, Bool.and_eq_true, spans, spansApart_iff, List.pairwise_map,
    List.Pairwise.iff_of_mem fun hx hy => spansMeet_eq_false_iff (pos _ hx) (pos _ hy)]
  simp only [List.all_eq_true, decide_eq_true_eq, Nat.dvd_iff_mod_eq_zero]

/-! ### The checks of a source table (R161) -/

theorem SourceTableRecord.inRange_eq_false_iff {m : SourceTableRecord} : m.inRange = false ↔
    14 < m.faceHead.toNat ∨ 14 < m.backHead.toNat ∨ 14 < m.gate.toNat ∨ 14 < m.printer.toNat ∨
      m.faceHead = m.backHead ∨ m.hosts.setWidth 15 = 0 := by
  simp only [SourceTableRecord.inRange, Bool.and_eq_false_iff, decide_eq_false_iff_not, not_le, not_not, ne_eq,
    or_assoc]
  rfl

/-! ### The order of the checks (R151, R159) -/

theorem State.takeMemoryMap_eq (m : MemoryMapRecord) (s : State) : s.takeMemoryMap m =
    if s.mode ≠ .standby then s.refusedFor .wrongMode
    else if s.setup.map ≠ none then s.refusedOnce
    else if m.map.inRange = false then s.refusedFor .range
    else if m.map.placed s.setup.straps = false then s.refusedFor .overlap
    else { s with setup := { s.setup with map := some m.map } } := by
  rw [State.takeMemoryMap, s.refuse_eq_refusedFor (reason := .wrongMode) (by decide), s.refuse_once_eq_refusedOnce,
    s.refuse_range, s.refuse_eq_refusedFor (reason := .overlap) (by decide)]
  simp only [Option.isSome_iff_ne_none]

theorem State.takeSourceTable_eq (m : SourceTableRecord) (s : State) : s.takeSourceTable m =
    if s.mode ≠ .standby then s.refusedFor .wrongMode
    else if s.setup.sources ≠ none then s.refusedOnce
    else if m.inRange = false then s.refusedFor .range
    else { s with setup := { s.setup with sources := some m.table } } := by
  rw [State.takeSourceTable, s.refuse_eq_refusedFor (reason := .wrongMode) (by decide), s.refuse_once_eq_refusedOnce,
    s.refuse_range]
  simp only [Option.isSome_iff_ne_none]

/-- Settles O27: the two captures by their checks, and the checks and the map by what they compute. -/
theorem onceOnlyRecordsAreCheckedInOrder : Obligations.OnceOnlyRecordsAreCheckedInOrder := by
  refine ⟨fun m s => congrArg Host.Outcome.next (s.takeMemoryMap_eq m), fun m s => congrArg Host.Outcome.next ?_,
    fun m => MemoryMap.inRange_iff, fun m straps h => MemoryMap.placed_iff straps h, fun r => ⟨rfl, rfl, rfl, rfl⟩,
    fun r => ⟨rfl, rfl, rfl, rfl, rfl, rfl, rfl, rfl, rfl⟩, fun m => rfl⟩
  rw [s.takeSourceTable_eq m]
  simp only [SourceTableRecord.inRange_eq_false_iff]
  rfl

end Sys2Proof.Machine
end

section
/-! PROOF. O30: a setup write shadows its slots in order and captures each whole tail (R148 to R150). -/

namespace Sys2Proof.Machine

theorem Request.wellFormedAs_write {r : Request} (h : r.wellFormedAs .write = true) : r.kind = .write ∧ 1 ≤ r.beats := by
  simp only [Request.wellFormedAs, Request.wellFormed, Bool.and_eq_true, decide_eq_true_eq] at h
  obtain ⟨⟨⟨beats, -⟩, -⟩, kind⟩ := h
  exact ⟨kind, beats⟩

/-! ### Slot by slot, where nothing is held (R150, R170) -/

/-- R149, R150: with nothing held, a LANE_MAP among the captures lets nothing in. -/
theorem State.takeSetupSlot_of_held_nil {s : State} (h : s.path.held = []) (r : Request) (k : Fin 16) :
    State.takeSetupSlot State.settleHeld r s k.val = State.hostSlot r s k := by
  have quiet : ∀ (t : State) (bs : List Byte), t.path.held = [] → t.capture State.settleHeld bs = t.capture id bs :=
    fun t bs ht => by
      unfold State.capture
      rw [State.settleHeld_of_held_nil ((t.takeRecord_watch bs).held.trans ht)]
      rfl
  rw [← State.takeSetupSlot_eq_hostSlot]
  unfold State.takeSetupSlot
  simp only []
  split
  · exact quiet _ _ h
  · rfl

theorem State.hostSlot_held (r : Request) (s : State) (k : Fin 16) : (State.hostSlot r s k).path.held = s.path.held := by
  unfold State.hostSlot
  simp only []
  split
  · exact (State.takeRecord_watch _ _).held
  · rfl

/-- R148: the slots of the setup area that a request touches, ascending. -/
def setupSlots (s : State) (r : Request) : List (Fin 16) :=
  (List.finRange 16).filter fun k => reqTouches r (s.setup.straps.toNat * 65536 + 64 * k.val) 64

theorem slotsTouched_setup (s : State) (r : Request) :
    slotsTouched r (setupBase s.setup.straps) 64 16 = (setupSlots s r).map Fin.val := by
  rw [slotsTouched, ← List.map_coe_finRange_eq_range, List.filter_map]
  rfl

/-- R149, R150: a host write's part in the setup area. -/
theorem State.takeSetupWrite_host {s : State} (h : s.path.held = []) (r : Request) :
    s.takeSetupWrite State.settleHeld true r = (setupSlots s r).foldl (State.hostSlot r) s := by
  rw [State.takeSetupWrite, if_pos rfl, slotsTouched_setup, List.foldl_map]
  exact foldl_congr_of_kept (I := fun t => t.path.held = []) (fun t ht k _ => State.takeSetupSlot_of_held_nil ht r k)
    (fun t ht k _ => (t.hostSlot_held r k).trans ht) h

/-! ### A write that falls into the setup area alone (R148) -/

theorem partsOf_setup {u : SetupUnit} {r : Request} (hk : r.kind = .write) (ho : reqOutside r = false)
    (h : reqTouches r (setupBase u.straps) setupSize = true)
    (hm : ∀ m, u.map = some m → reqTouches r m.exit 512 = false ∧ reqTouches r m.status 512 = false ∧
      ∀ sd, reqInside r (m.rings.get sd).base ((m.rings.get sd).count * 4096) = false) :
    partsOf u r = [(setupBase u.straps, .setup)] := by
  unfold partsOf
  simp only [ho, hk, Bool.false_eq_true, if_false]
  cases hmap : u.map with
  | none => simp [partIf, h]
  | some m =>
    obtain ⟨exit, status, rings⟩ := hm m hmap
    have face := rings .face
    have back := rings .back
    simp only [PerSide.get] at face back
    simp [partIf, h, face, back, exit, status]

section Accepted

variable {s : State} {r : Request}

/-- R148, R149, R171: a setup write is queued, and is foreign or taken slot by slot. -/
theorem exec_setupWrite (hr : s.AcceptsAtOnce r) (hk : r.kind = .write)
    (hp : partsOf s.setup r = [(setupBase s.setup.straps, .setup)]) :
    exec (.setupWrite r) s = .next (if isHost s.setup.sources r then
      (setupSlots s r).foldl (State.hostSlot r) (s.queued r []) else (s.queued r []).flagged 1) := by
  refine congrArg Host.Outcome.next ((State.present_part hr hk hp).trans ?_)
  simp only [State.takePart]
  cases isHost s.setup.sources r
  · rfl
  · exact State.takeSetupWrite_host (s := s.queued r []) hr.1 r

theorem isHost_eq_true (h : ∀ x, s.setup.sources = some x → x.hosts.getLsbD r.source.toNat = true) :
    isHost s.setup.sources r = true := by
  cases hx : s.setup.sources with
  | none => rfl
  | some x => exact h x hx

theorem isHost_eq_false {x : SourceTable} (hx : s.setup.sources = some x)
    (h : x.hosts.getLsbD r.source.toNat = false) : isHost s.setup.sources r = false := by
  rw [hx]
  exact h

end Accepted

/-! ### A write within one slot (R148, R160) -/

section OneSlot

variable {s : State} {r : Request} {k : Fin 16}

theorem reqWithin_area (hb : 1 ≤ r.beats) (h : reqInside r (s.setup.straps.toNat * 65536 + 64 * k.val) 64 = true) :
    reqWithin r (setupBase s.setup.straps, setupSize) := by
  obtain ⟨lo, hi, nonempty⟩ := reqWithin_of_inside h hb
  have slots := k.isLt
  dsimp only at lo hi
  refine ⟨?_, ?_, nonempty⟩
  · show s.setup.straps.toNat * 65536 ≤ reqLo r
    exact le_trans (Nat.le_add_right _ _) lo
  · show reqHi r ≤ s.setup.straps.toNat * 65536 + 1024
    omega

/-- R160: the setup area shares no byte with a window of a placed map. -/
theorem reqWithin.no_window {straps : BitVec 16} {m : MemoryMap} (h : reqWithin r (setupBase straps, setupSize))
    (hm : m.placed straps = true) :
    reqTouches r m.exit 512 = false ∧ reqTouches r m.status 512 = false ∧
      ∀ sd, reqInside r (m.rings.get sd).base ((m.rings.get sd).count * 4096) = false := by
  refine ⟨h.not_touches (MemoryMap.apart hm (i := 0) (j := 6) (by decide) (by decide)),
    h.not_touches (MemoryMap.apart hm (i := 0) (j := 5) (by decide) (by decide)), fun sd => ?_⟩
  cases sd
  · exact h.not_inside (MemoryMap.apart hm (i := 0) (j := 1) (by decide) (by decide))
  · exact h.not_inside (MemoryMap.apart hm (i := 0) (j := 2) (by decide) (by decide))

theorem setupSlots_one (hb : 1 ≤ r.beats) (h : reqInside r (s.setup.straps.toNat * 65536 + 64 * k.val) 64 = true) :
    setupSlots s r = [k] := by
  obtain ⟨lo, hi, nonempty⟩ := reqWithin_of_inside h hb
  dsimp only at lo hi
  have slots : setupSlots s r = (List.finRange 16).filter fun i => i = k := List.filter_congr fun i _ => by
    rw [Bool.eq_iff_iff, decide_eq_true_eq, Fin.ext_iff]
    simp only [reqTouches, Bool.and_eq_true, decide_eq_true_eq]
    omega
  rw [slots, List.filter_eq, List.count_eq_one_of_mem (List.nodup_finRange 16) (List.mem_finRange k)]
  rfl

end OneSlot

/-- Settles O30: a setup write has its part in the setup area alone, and that part is foreign, or a fold over the slots it
touches, of which a write within one slot touches one. -/
theorem setupWriteShadowsItsSlot : Obligations.SetupWriteShadowsItsSlot := by
  refine ⟨fun s r k hw hc hs ha hp hin => ?_, fun s r hw hc hs ha ht hm => ?_⟩
  · obtain ⟨kind, beats⟩ := Request.wellFormedAs_write hw
    have within := reqWithin_area beats hin
    have parts := partsOf_setup kind (reqOutside_eq_false hc hs) within.touches
      fun m hm => within.no_window (hp.map m hm).2
    have taken := exec_setupWrite ha kind parts
    rw [setupSlots_one beats hin, List.foldl_cons, List.foldl_nil] at taken
    intro slot shadow t
    have one : State.hostSlot r (s.queued r []) k =
        if (writtenBytes r (slot + 56) 8).isSome then t.takeRecord shadow.toList else t := rfl
    refine ⟨fun x hx hf => ?_, fun hh ⟨i, hi⟩ => ?_, fun hh htail => ?_⟩
    · rw [taken, isHost_eq_false hx hf]
      rfl
    · have tail : writtenBytes r (slot + 56) 8 = none := (writtenBytes_eq_none_iff r _ 8).mpr ⟨i, i.isLt, hi⟩
      rw [taken, isHost_eq_true hh, if_pos rfl, one, tail]
      rfl
    · have tail : writtenBytes r (slot + 56) 8 ≠ none := fun hn => by
        obtain ⟨i, hi, hnone⟩ := (writtenBytes_eq_none_iff r _ 8).mp hn
        exact htail ⟨i, hi⟩ hnone
      rw [taken, isHost_eq_true hh, if_pos rfl, one, if_pos (Option.isSome_iff_ne_none.mpr tail)]
  · obtain ⟨kind, -⟩ := Request.wellFormedAs_write hw
    have taken := exec_setupWrite ha kind (partsOf_setup kind (reqOutside_eq_false hc hs) ht hm)
    refine ⟨fun x hx hf => ?_, fun hh => ?_⟩
    · rw [taken, isHost_eq_false hx hf]
      rfl
    · rw [taken, isHost_eq_true hh]
      rfl

end Sys2Proof.Machine
end

section
/-! PROOF. O19: LOPEN, LCLOSE, CLOSE and DROP (R162, R172, R175, R176, R189). -/

namespace Sys2Proof.Machine

theorem laneOfOperand_code (l : Lane) : laneOfOperand (BitVec.ofNat 8 l.code) = some l := by cases l <;> rfl

theorem laneOfOperand_eq_none {operand : BitVec 8} (h : 4 ≤ operand.toNat) : laneOfOperand operand = none :=
  if_neg (by omega)

@[simp] theorem PerLane.set_set {α : Type} (p : PerLane α) (l : Lane) (v w : α) : (p.set l v).set l w = p.set l w := by
  cases l <;> rfl

theorem State.refuse_wrongMode (s : State) : s.refuse .wrongMode = s.refusedFor .wrongMode :=
  s.refuse_eq_refusedFor (by decide)

section Lanes

variable {s : State} {l : Lane}

theorem State.directLopen_code : s.directLopen (BitVec.ofNat 8 l.code) = s.openLaneDirective l := by
  rw [State.directLopen, laneOfOperand_code]

theorem State.directLclose_code : s.directLclose (BitVec.ofNat 8 l.code) = s.closeLaneDirective l := by
  rw [State.directLclose, laneOfOperand_code]

/-- R175: CLOSE of a lane with nothing outstanding. -/
theorem State.closeLane_idle (h : (s.lane l).outstanding = 0) : s.closeLane l = { s with path := { s.path with
    lanes := s.path.lanes.set l { state := .down, credits := 0, outstanding := 0 }
    downLog := s.path.downLog ++ [.message (linkMessage 2 l 0)] } } := by
  have closed : { s.lane l with state := .down, credits := 0 } = (⟨.down, 0, 0⟩ : LaneUnit) :=
    congrArg (LaneUnit.mk .down 0) h
  rw [State.closeLane, closed]
  rfl

/-- R175: LCLOSE of an UP lane with nothing outstanding sends CLOSE at once. -/
theorem State.closeLaneDirective_idle (hu : (s.lane l).state = .up) (h : (s.lane l).outstanding = 0) :
    s.closeLaneDirective l = { s with path := { s.path with
      lanes := s.path.lanes.set l { state := .down, credits := 0, outstanding := 0 }
      downLog := s.path.downLog ++ [.message (linkMessage 2 l 0)] } } := by
  have closing : (s.setLane l { s.lane l with state := .closing }).lane l = { s.lane l with state := .closing } :=
    State.lane_setLane_same _ _ _
  rw [State.closeLaneDirective, if_pos hu, State.closeLaneIfDue, closing, if_pos ⟨rfl, h⟩,
    State.closeLane_idle (by rw [closing]; exact h)]
  simp only [State.setLane, PerLane.set_set]

/-- R175: with a response outstanding, the lane waits in CLOSING. -/
theorem State.closeLaneDirective_waits (hu : (s.lane l).state = .up) (h : (s.lane l).outstanding ≠ 0) :
    s.closeLaneDirective l = s.setLane l { s.lane l with state := .closing } := by
  have waits : ((s.setLane l { s.lane l with state := .closing }).lane l).outstanding ≠ 0 := by
    rw [State.lane_setLane_same]
    exact h
  rw [State.closeLaneDirective, if_pos hu, State.closeLaneIfDue, if_neg fun hc => waits hc.2]

end Lanes

/-- Settles O19, by the state of the lane and what is outstanding. -/
theorem lanesOpenCloseAndDrop : Obligations.LanesOpenCloseAndDrop := by
  refine ⟨fun l s h => ?_, fun l s h => ?_, fun o s h => ?_, fun l s h ho => ?_, fun l s h ho => ?_, fun l s h => ?_,
    fun o s h => ?_, fun l s => ?_, fun l s => rfl⟩ <;> refine congrArg Host.Outcome.next ?_
  · rw [State.directLopen_code, State.openLaneDirective, if_pos h]
    rfl
  · rw [State.directLopen_code, State.openLaneDirective, if_neg h, State.refuse_wrongMode]
  · rw [State.directLopen, laneOfOperand_eq_none h, State.refuse_range]
  · rw [State.directLclose_code, State.closeLaneDirective_idle h ho]
  · rw [State.directLclose_code, State.closeLaneDirective_waits h ho]
    rfl
  · rw [State.directLclose_code, State.closeLaneDirective, if_neg h, State.refuse_wrongMode]
  · rw [State.directLclose, laneOfOperand_eq_none h, State.refuse_range]
  · rw [State.closeLaneIfDue]
    split
    · rename_i due
      exact State.closeLane_idle due.2
    · rfl

end Sys2Proof.Machine
end

section
/-! PROOF. O31: each record kind is its own command, with its body layout (R150, R162, R184, R186, section 10.4). -/

namespace Sys2Proof.Machine

/-! ### Little-endian fields (R184) -/

theorem toNat_slotHalf (bs : List Byte) (i : Nat) : (slotHalf bs i).toNat = half bs i := by
  have lo := (byteAt bs i).isLt
  rw [slotHalf, BitVec.toNat_append, ← Nat.shiftLeft_add_eq_or_of_lt lo, Nat.shiftLeft_eq]
  simp only [half, numOfBytes]
  omega

theorem toNat_slotWord (bs : List Byte) (i : Nat) : (slotWord bs i).toNat = word bs i := by
  have lo := (slotHalf bs i).isLt
  rw [slotWord, BitVec.toNat_append, ← Nat.shiftLeft_add_eq_or_of_lt lo, Nat.shiftLeft_eq, toNat_slotHalf, toNat_slotHalf]
  simp only [half, word, numOfBytes, Nat.add_assoc, Nat.reduceAdd]
  omega

theorem getLsbD_zero_iff (b : Byte) : b.getLsbD 0 = true ↔ b.toNat % 2 = 1 := by
  rw [BitVec.getLsbD, Nat.testBit_zero, decide_eq_true_eq]

/-! ### Directives (R162) -/

/-- R162: the eleven directives, in the order of their codes. -/
def directives (operand : BitVec 8) : List Instr :=
  [.run, .drain, .stby, .clrs, .tclose, .csusp, .cres, .crel, .lopen operand, .lclose operand, .restart]

theorem directiveOf_eq (code operand : BitVec 8) :
    directiveOf code operand = (directives operand)[code.toNat - 1]?.filter fun _ => decide (code ≠ 0) := rfl

theorem length_directives (operand : BitVec 8) : (directives operand).length = 11 := rfl

theorem directiveOf_eq_some {code operand : BitVec 8} {c : Instr} (h : directiveOf code operand = some c) :
    ∃ i, code.toNat = i + 1 ∧ (directives operand)[i]? = some c := by
  obtain ⟨named, nonzero⟩ := Option.filter_eq_some_iff.mp (directiveOf_eq code operand ▸ h)
  have pos : code ≠ 0 := of_decide_eq_true nonzero
  exact ⟨code.toNat - 1, by bv_omega, named⟩

theorem directiveOf_eq_none {code operand : BitVec 8} (h : directiveOf code operand = none) :
    code.toNat = 0 ∨ ∃ i, code.toNat = i + 12 := by
  by_contra hn
  obtain ⟨pos, few⟩ := not_or.mp hn
  have few : code.toNat < 12 := Nat.lt_of_not_le fun hle => few ⟨code.toNat - 12, by omega⟩
  have nonzero : code ≠ 0 := fun hz => pos (by rw [hz]; rfl)
  have named := List.getElem?_eq_getElem (l := directives operand) (i := code.toNat - 1)
    (by rw [length_directives]; omega)
  rw [directiveOf_eq, named, Option.filter_some, if_pos (decide_eq_true nonzero)] at h
  cases h

/-- R162: each of the eleven directives is its own command. -/
theorem exec_directiveOf {code operand : BitVec 8} {c : Instr} (h : directiveOf code operand = some c) (s : State) :
    exec c s = .next (s.takeDirective code operand) := by
  obtain ⟨i, hcode, hc⟩ := directiveOf_eq_some h
  obtain ⟨hi, rfl⟩ := List.getElem?_eq_some_iff.mp hc
  rw [State.takeDirective, hcode]
  rw [length_directives] at hi
  interval_cases i <;> rfl

/-- R162: any other code is refused. -/
theorem State.takeDirective_unnamed {code operand : BitVec 8} (h : directiveOf code operand = none) (s : State) :
    s.takeDirective code operand = s.refusedFor .range := by
  rw [← s.refuse_range, State.takeDirective]
  obtain h0 | ⟨i, hi⟩ := directiveOf_eq_none h
  · rw [h0]
    rfl
  · rw [hi]
    rfl

/-! ### Kinds (R150, R186) -/

/-- R186: kinds 0 and above 10 name no record. -/
theorem State.takeRecord_badKind {bs : List Byte} (h : (byteAt bs 56).toNat = 0 ∨ 10 < (byteAt bs 56).toNat) (s : State) :
    s.takeRecord bs = s.refusedFor .badKind := by
  rw [← s.refuse_eq_refusedFor (reason := .badKind) (by decide), State.takeRecord]
  obtain h0 | h11 := h
  · rw [h0]
    rfl
  · rw [← Nat.sub_add_cancel h11]
    rfl

/-- Settles O31: the capture by the kind of the record, and each body by its bytes. -/
theorem captureTakesTheRecordOfItsKind : Obligations.CaptureTakesTheRecordOfItsKind := by
  refine ⟨fun bs s hheld => ?_, fun bs => ?_⟩
  · dsimp only
    refine ⟨?_, ?_, fun h => ?laneMap, fun h c hc => ?directive, fun h hn => ?unnamed, ?_, ?_, ?_, ?_, ?_, ?_,
      fun h => State.takeRecord_badKind h s⟩
    case laneMap =>
      rw [State.takeRecord, h]
      exact congrArg Host.Outcome.next (State.settleHeld_of_held_nil ((s.takeLaneMap_watch _).held.trans hheld))
    case directive =>
      rw [State.takeRecord, h]
      exact exec_directiveOf hc s
    case unnamed =>
      rw [State.takeRecord, h]
      exact State.takeDirective_unnamed hn s
    all_goals
      intro h
      rw [State.takeRecord, h]
      rfl
  · have half := toNat_slotHalf bs
    have word := toNat_slotWord bs
    refine ⟨⟨word 0, half 4, word 8, half 12, word 16, word 20, word 24, word 28, word 32, word 36, half 40, word 44,
      half 48⟩, ⟨rfl, rfl, rfl, rfl, half 4⟩, fun i => ?_, half 0, ⟨rfl, half 2, half 4, half 6, half 8, half 10, half 12⟩,
      ⟨rfl, rfl, rfl, getLsbD_zero_iff _, half 4, half 6, rfl, rfl, half 10, half 12, rfl, rfl, half 16, half 18, half 20⟩,
      ⟨half 0, half 2, half 4, rfl⟩, ⟨rfl, rfl, rfl, rfl, rfl, half 6, half 8, half 10, half 12⟩,
      ⟨fun i => ?_, rfl, rfl, half 18, rfl⟩⟩
    · fin_cases i <;> rfl
    · fin_cases i <;> exact ⟨rfl, rfl⟩

end Sys2Proof.Machine
end

section
/-! SUPPORT. The U-port: what leaves the path unit's laws in place, and `KeptByAdmission P`, which lists what it takes for the
arrival of requests, held ones among them, to keep a property `P` of the path unit. After the arrivals no request is held
whose lane has room (R169 to R171). -/

namespace Sys2Proof.Machine

/-! ### Events that leave queues and held requests -/

/-- The queues, the held requests, the guard count and the lanes that issued the requests of the issued list are as they
were; each lane is as lawful as before and has as much outstanding. -/
structure PathFrame (s t : State) : Prop where
  queues      : t.path.queues = s.path.queues
  held        : t.path.held = s.path.held
  behind      : t.path.behind = s.path.behind
  issuers     : t.path.issued.map Issued.lane = s.path.issued.map Issued.lane
  guard       : t.path.guard = s.path.guard
  bounded     : ∀ l, (s.lane l).Bounded → (t.lane l).Bounded
  outstanding : ∀ l, (t.lane l).outstanding = (s.lane l).outstanding

theorem State.lane_of_path {s t : State} (h : t.path = s.path) (l : Lane) : t.lane l = s.lane l := by
  rw [State.lane, State.lane, h]

theorem PathFrame.of_path {s t : State} (h : t.path = s.path) : PathFrame s t :=
  ⟨by rw [h], by rw [h], by rw [h], by rw [h], by rw [h], fun l hb => State.lane_of_path h l ▸ hb,
    fun l => by rw [State.lane_of_path h]⟩

theorem PathFrame.trans {s t u : State} (h : PathFrame s t) (k : PathFrame t u) : PathFrame s u :=
  ⟨k.queues.trans h.queues, k.held.trans h.held, k.behind.trans h.behind, k.issuers.trans h.issuers,
    k.guard.trans h.guard, fun l hb => k.bounded l (h.bounded l hb),
    fun l => (k.outstanding l).trans (h.outstanding l)⟩

/-- A `PathFrame` that leaves the lane map too, and so the lane of every request (R169). -/
structure PortFrame (s t : State) : Prop extends PathFrame s t where
  laneMap : t.setup.laneMap = s.setup.laneMap

theorem PortFrame.of_path {s t : State} (h : t.path = s.path) (hm : t.setup.laneMap = s.setup.laneMap) :
    PortFrame s t := ⟨.of_path h, hm⟩

theorem PortFrame.refl (s : State) : PortFrame s s := .of_path rfl rfl

theorem PortFrame.trans {s t u : State} (h : PortFrame s t) (k : PortFrame t u) : PortFrame s u :=
  ⟨h.toPathFrame.trans k.toPathFrame, k.laneMap.trans h.laneMap⟩

theorem StatusFrame.port {s t : State} (h : StatusFrame s t) : PortFrame s t := .of_path h.path (by rw [h.setup])

/-! ### Lanes (R172 to R176) -/

/-- Section 9.3: a lane replaced by a lawful one with as much outstanding. -/
theorem State.setLane_port {s : State} {l : Lane} {u : LaneUnit} (hb : (s.lane l).Bounded → u.Bounded)
    (ho : u.outstanding = (s.lane l).outstanding) : PortFrame s (s.setLane l u) := by
  refine ⟨⟨rfl, rfl, rfl, rfl, rfl, fun k hk => ?_, fun k => ?_⟩, rfl⟩ <;> by_cases h : k = l
  · subst h
    exact (State.lane_setLane_same s k u).symm ▸ hb hk
  · exact (State.lane_setLane_ne s u h).symm ▸ hk
  · subst h
    rw [State.lane_setLane_same, ho]
  · rw [State.lane_setLane_ne s u h]

/-- A lane without credits is lawful in every state. -/
theorem State.spentLane_port (s : State) (l : Lane) (st : LaneState) :
    PortFrame s (s.setLane l { s.lane l with state := st, credits := 0 }) :=
  State.setLane_port (fun _ => ⟨Nat.zero_le 63, fun _ => rfl⟩) rfl

theorem State.sendDown_port (s : State) (d : DownSend) : PortFrame s (s.sendDown d) :=
  ⟨⟨rfl, rfl, rfl, rfl, rfl, fun _ h => h, fun _ => rfl⟩, rfl⟩

theorem State.openLane_port (s : State) (l : Lane) : PortFrame s (s.openLane l) :=
  (s.spentLane_port l .opening).trans (State.sendDown_port _ _)

theorem State.closeLaneIfDue_port (s : State) (l : Lane) : PortFrame s (s.closeLaneIfDue l) := by
  unfold State.closeLaneIfDue
  split
  · exact (s.spentLane_port l .down).trans (State.sendDown_port _ _)
  · exact .refl s

theorem State.refuse_port (s : State) (r : RefusalReason) : PortFrame s (s.refuse r) :=
  .of_path (s.refuse_path r) (by rw [s.refuse_setup])

theorem State.directLopen_port (s : State) (operand : BitVec 8) : PortFrame s (s.directLopen operand) := by
  unfold State.directLopen State.openLaneDirective
  split
  · split
    · exact s.openLane_port _
    · exact s.refuse_port _
  · exact s.refuse_port _

theorem State.directLclose_port (s : State) (operand : BitVec 8) : PortFrame s (s.directLclose operand) := by
  have closing : ∀ l, PortFrame s (s.setLane l { s.lane l with state := .closing }) := fun l =>
    State.setLane_port (fun h => ⟨h.1, fun hs => by rcases hs with hs | hs <;> cases hs⟩) rfl
  unfold State.directLclose State.closeLaneDirective
  split
  · split
    · exact (closing _).trans (State.closeLaneIfDue_port _ _)
    · exact s.refuse_port _
  · exact s.refuse_port _

/-- R173: a GRANT's count fits a lane. -/
theorem State.takeGrant_port {n : Nat} (s : State) (l : Lane) (hn : n ≤ 63) : PortFrame s (s.takeGrant l n) := by
  have opened : PortFrame s (s.setLane l { s.lane l with state := .up, credits := n }) :=
    State.setLane_port (fun _ => ⟨hn, fun hs => by rcases hs with hs | hs <;> cases hs⟩) rfl
  unfold State.takeGrant
  split
  · split
    · exact (s.spentLane_port l .down).trans (.of_path (State.raise_path _ _) rfl)
    · exact opened
  · exact .refl s

/-- R174: only an UP or a CLOSING lane gains credits. -/
theorem State.takeCredit_port (s : State) (l : Lane) (k : Nat) : PortFrame s (s.takeCredit l k) := by
  have added : (s.lane l).state = .up ∨ (s.lane l).state = .closing →
      PortFrame s (s.setLane l { s.lane l with credits := min creditMax ((s.lane l).credits + k) }) := fun hs =>
    State.setLane_port (fun _ => ⟨Nat.min_le_left _ _, fun hd => by
      rcases hs with hs | hs <;> simp [hs] at hd⟩) rfl
  unfold State.takeCredit
  split
  · rename_i hs
    exact added (.inl hs)
  · rename_i hs
    exact added (.inr hs)
  · exact .refl s

theorem State.takeDrop_port (s : State) (l : Lane) : PortFrame s (s.takeDrop l) :=
  (s.spentLane_port l .down).trans (.of_path (State.raise_path _ _) rfl)

/-! ### Directives (R162) -/

theorem Issued.unlink_lane (i : Issued) : i.unlink.lane = i.lane := by rw [Issued.unlink_eq]

/-- R147, R163: RESTART clears the links of the issued list and leaves its requests. -/
theorem State.directRestart_port (s : State) : PortFrame s s.directRestart := by
  unfold State.directRestart
  split
  · refine ⟨⟨rfl, rfl, rfl, ?_, rfl, fun _ h => h, fun _ => rfl⟩, rfl⟩
    rw [State.restarted, List.map_map]
    exact List.map_congr_left fun i _ => i.unlink_lane
  · exact s.refuse_port _

theorem State.directRun_port (s : State) : PortFrame s s.directRun := by
  unfold State.directRun
  repeat' split
  all_goals exact .of_path rfl rfl

theorem State.directDrain_port (s : State) : PortFrame s s.directDrain := by
  unfold State.directDrain
  split
  · exact PortFrame.trans (t := { s with mode := .drain }) (.of_path rfl rfl) (State.drainEndIfDue_track _).status.port
  · exact s.refuse_port _

theorem State.takeDirective_port (s : State) (code operand : BitVec 8) : PortFrame s (s.takeDirective code operand) := by
  unfold State.takeDirective
  split
  · exact s.directRun_port
  · exact s.directDrain_port
  · exact s.directStby_track.status.port
  · exact .of_path rfl rfl
  · exact (s.requestClose_track _).status.port
  · exact .of_path rfl rfl
  · exact .of_path rfl rfl
  · exact .of_path rfl rfl
  · exact s.directLopen_port operand
  · exact s.directLclose_port operand
  · exact s.directRestart_port
  · exact s.refuse_port _

/-! ### Records (R150 to R161) -/

theorem State.takeMemoryMap_port (s : State) (m : MemoryMapRecord) : PortFrame s (s.takeMemoryMap m) := by
  refine .of_path (s.takeMemoryMap_path m) ?_
  unfold State.takeMemoryMap
  repeat' split
  all_goals simp

theorem State.takeSourceTable_port (s : State) (m : SourceTableRecord) : PortFrame s (s.takeSourceTable m) := by
  refine .of_path (s.takeSourceTable_path m) ?_
  unfold State.takeSourceTable
  repeat' split
  all_goals simp

theorem State.stage_port (s : State) (f : Settings → Settings) : PortFrame s (s.stage f) :=
  .of_path (s.stage_path f) (by rw [s.stage_setup])

theorem State.takeCorrection_port (s : State) (m : CorrectionRecord) : PortFrame s (s.takeCorrection m) := by
  unfold State.takeCorrection
  split
  · exact s.stage_port _
  · exact s.refuse_port _

theorem State.takeClassTest_port (s : State) (m : ClassTestRecord) : PortFrame s (s.takeClassTest m) := by
  unfold State.takeClassTest
  split
  · exact s.stage_port _
  · exact s.refuse_port _

theorem State.takeGeometry_port (s : State) (m : GeometryRecord) : PortFrame s (s.takeGeometry m) := by
  unfold State.takeGeometry
  split
  · exact s.stage_port _
  · exact s.refuse_port _

theorem State.takeDecision_port (s : State) (m : DecisionRecord) : PortFrame s (s.takeDecision m) := by
  unfold State.takeDecision
  split
  · exact s.stage_port _
  · exact s.refuse_port _

theorem State.takeTraySet_port (s : State) (m : TraySetRecord) : PortFrame s (s.takeTraySet m) := by
  unfold State.takeTraySet
  split
  · split <;> exact .of_path rfl rfl
  · exact s.refuse_port _

/-- R150: a capture; a LANE_MAP's alone can change the lane map. -/
theorem State.takeRecord_pathFrame (s : State) (bs : List Byte) : PathFrame s (s.takeRecord bs) := by
  unfold State.takeRecord
  split
  · exact (s.takeMemoryMap_port _).toPathFrame
  · exact (s.takeSourceTable_port _).toPathFrame
  · exact .of_path (s.takeLaneMap_path _)
  · exact (s.takeDirective_port _ _).toPathFrame
  · exact .of_path rfl
  · exact (s.takeCorrection_port _).toPathFrame
  · exact (s.takeClassTest_port _).toPathFrame
  · exact (s.takeGeometry_port _).toPathFrame
  · exact (s.takeDecision_port _).toPathFrame
  · exact (s.takeTraySet_port _).toPathFrame
  · exact (s.refuse_port _).toPathFrame

/-! ### Parts outside the setup area (R171) -/

theorem State.takePart_status {settle : State → State} {sources : Option SourceTable} {r : Request}
    {acc : State × FillPlan} {p : Nat × Part} (h : p.2 ≠ .setup) :
    StatusFrame acc.1 (State.takePart settle sources r acc p).1 := by
  unfold State.takePart
  split
  · contradiction
  · exact (State.offerImage_track _ _ _ _ _).status
  · exact (State.takeExitWrite_track _ _ _ _).status
  · exact State.takeStatusWrite_status _ _ _ _
  · exact (State.takeDispatchRead_track _ _ _ _).status
  · exact (State.takePrintRead_track _ _ _ _).status
  · exact .refl _

/-- R149: a READ has no part in the setup area. -/
theorem part_ne_setup_of_read {u : SetupUnit} {r : Request} (hr : r.kind = .read) {p : Nat × Part}
    (hp : p ∈ partsOf u r) : p.2 ≠ .setup := by
  intro hs
  unfold partsOf at hp
  rw [hr] at hp
  split at hp
  · cases hp
  · simp only at hp
    split at hp
    · cases hp
    · simp only [List.mem_append, mem_partIf] at hp
      obtain (⟨-, rfl⟩ | ⟨-, rfl⟩) | ⟨-, rfl⟩ := hp <;> cases hs

/-- R171: what a READ brings about leaves the path unit and the setup unit. -/
theorem State.offer_read {r : Request} (hr : r.kind = .read) (settle : State → State) (s : State) :
    StatusFrame s (s.offer settle r).1 :=
  List.foldlRecOn _ _ (motive := fun acc : State × FillPlan => StatusFrame s acc.1) (.refl s)
    fun _ kept _ hp => kept.trans (State.takePart_status (part_ne_setup_of_read hr (mem_orderParts.mp hp)))

/-! ### The arrival of held requests (R170) -/

/-- R170: the state once a held request is taken out to arrive, and one of its class is presented in its place. -/
def State.withdrawn (q : Request × List Request) (s : State) : State :=
  ({ s with path := { s.path with held := q.2 } } : State).presentBehind q.1.classTag

theorem State.admitHeld_none {s : State} (h : s.nextAdmitted = none) (n : Nat) : s.admitHeld n = s := by
  cases n with
  | zero => rfl
  | succ n => rw [State.admitHeld, h]

theorem State.admitHeld_some {s : State} {q : Request × List Request} (h : s.nextAdmitted = some q) (n : Nat) :
    s.admitHeld (n + 1) = State.admitHeld n
      ((s.withdrawn q).arrive (State.admitHeld n) ((s.withdrawn q).laneOf q.1) q.1) := by
  rw [State.admitHeld, h]
  rfl

/-- R170: where the held request that arrives stood. -/
theorem State.nextAdmitted_spec {s : State} {q : Request × List Request} (h : s.nextAdmitted = some q) :
    ∃ before after, s.path.held = before ++ q.1 :: after ∧ q.2 = before ++ after ∧ s.hasRoom (s.laneOf q.1) = true := by
  obtain ⟨before, after, held, left, room, -⟩ := takeFirst_spec (r := q.1) (rest := q.2) h
  exact ⟨before, after, held, left, room⟩

/-- R170: none arrives just where no held request's lane has room. -/
theorem State.nextAdmitted_eq_none {s : State} :
    s.nextAdmitted = none ↔ ∀ r ∈ s.path.held, s.hasRoom (s.laneOf r) = false :=
  ⟨takeFirst_none, takeFirst_eq_none⟩

/-- R170: the request presented in the place of one that arrives is of its class, if there is one. -/
theorem State.withdrawn_cases (q : Request × List Request) (s : State) :
    s.withdrawn q = { s with path := { s.path with held := q.2 } } ∨
      ∃ r before after, s.path.behind = before ++ r :: after ∧ r.classTag = q.1.classTag ∧
        s.withdrawn q = { s with path := { s.path with held := q.2 ++ [r], behind := before ++ after } } := by
  unfold State.withdrawn State.presentBehind
  split
  · rename_i c hc
    obtain ⟨before, after, behind, left, cls, -⟩ := takeFirst_spec (r := c.1) (rest := c.2) hc
    exact .inr ⟨c.1, before, after, behind, of_decide_eq_true cls, by rw [left]⟩
  · exact .inl rfl

theorem State.hasRoom_withdrawn (q : Request × List Request) (s : State) (r : Request) :
    (s.withdrawn q).hasRoom ((s.withdrawn q).laneOf r) = s.hasRoom (s.laneOf r) := by
  obtain h | ⟨c, before, after, -, -, h⟩ := s.withdrawn_cases q <;> rw [h] <;> rfl

/-- The number of requests held at the U-port or kept behind held ones. -/
def State.waiting (s : State) : Nat := s.path.held.length + s.path.behind.length

theorem State.waiting_withdrawn {s : State} {q : Request × List Request} (h : s.nextAdmitted = some q) :
    (s.withdrawn q).waiting + 1 = s.waiting := by
  obtain ⟨b, a, held, left, -⟩ := State.nextAdmitted_spec h
  obtain he | ⟨c, before, after, behind, -, he⟩ := s.withdrawn_cases q
  · simp only [he, State.waiting, held, left, List.length_append, List.length_cons]
    omega
  · simp only [he, State.waiting, held, left, behind, List.length_append, List.length_cons, List.length_nil]
    omega

/-- `P` speaks of the path unit alone, and is kept by the captures, by a request queued where there is room, and by a held
request's leaving the U-port. -/
structure KeptByAdmission (P : State → Prop) : Prop where
  same     : ∀ s t, t.path = s.path → P s → P t
  record   : ∀ s bs, P s → P (s.takeRecord bs)
  enqueue  : ∀ s l q, s.hasRoom l = true → P s → P (s.enqueue l q)
  withdraw : ∀ s q, s.nextAdmitted = some q → P s → P (s.withdrawn q)

namespace KeptByAdmission

variable {P : State → Prop} {s : State} {settle : State → State}

/-- R149, R150: one slot of a host write. -/
theorem takeSetupSlot (k : KeptByAdmission P) (hs : ∀ s, P s → P (settle s)) (r : Request) (n : Nat) (h : P s) :
    P (State.takeSetupSlot settle r s n) := by
  have shadowed := fun v => k.same s { s with setup := { s.setup with shadows := v } } rfl h
  unfold State.takeSetupSlot State.capture
  simp only []
  split
  · split
    · exact hs _ (k.record _ _ (shadowed _))
    · exact k.record _ _ (shadowed _)
  · exact shadowed _

/-- R171: one part of a request; the setup area's alone can reach the path unit. -/
theorem takePart (k : KeptByAdmission P) (hs : ∀ s, P s → P (settle s)) (sources : Option SourceTable) (r : Request)
    (q : State × FillPlan) (p : Nat × Part) (h : P q.1) : P (State.takePart settle sources r q p).1 := by
  by_cases hp : p.2 = .setup
  · unfold State.takePart State.takeSetupWrite
    simp only [hp]
    split
    · exact foldl_keeps (fun _ n => k.takeSetupSlot hs r n) _ h
    · exact k.same _ _ (State.raise_path _ _) h
  · exact k.same _ _ (State.takePart_status hp).path h

/-- R171: an arrival in a lane with room; a READ is queued once it is offered, and the lane still has room. -/
theorem arrive (k : KeptByAdmission P) (hs : ∀ s, P s → P (settle s)) {l : UpLane} (hroom : s.hasRoom l = true)
    (r : Request) (h : P s) : P (s.arrive settle l r) := by
  unfold State.arrive
  split
  · exact foldl_keeps (P := fun q : State × FillPlan => P q.1) (k.takePart hs _ r) _ (k.enqueue _ _ _ hroom h)
  · rename_i hr
    have path := (State.offer_read hr settle s).path
    have room : (s.offer settle r).1.hasRoom l = true := by
      rw [State.hasRoom, path]
      exact hroom
    exact k.enqueue _ _ _ room (k.same _ _ path h)

/-- R170: held requests, one after another. -/
theorem admitHeld (k : KeptByAdmission P) : ∀ (n : Nat) (s : State), P s → P (s.admitHeld n)
  | 0, _, h => h
  | n + 1, s, h => by
    have ih := k.admitHeld n
    cases hq : s.nextAdmitted with
    | none => rwa [State.admitHeld_none hq]
    | some q =>
      obtain ⟨-, -, -, -, room⟩ := State.nextAdmitted_spec hq
      rw [State.admitHeld_some hq]
      exact ih _ (k.arrive ih ((s.hasRoom_withdrawn q q.1).trans room) q.1 (k.withdraw s q hq h))

theorem settleHeld (k : KeptByAdmission P) (h : P s) : P s.settleHeld := k.admitHeld _ s h

end KeptByAdmission

/-- R170: what arrives does not wait any more, and nothing joins those that wait. -/
theorem waiting_keptByAdmission (n : Nat) : KeptByAdmission fun s => s.waiting ≤ n where
  same s t hp h := by
    rw [State.waiting, hp]
    exact h
  record s bs h := by
    have f := s.takeRecord_pathFrame bs
    rw [State.waiting, f.held, f.behind]
    exact h
  enqueue _ _ _ _ h := h
  withdraw s q hq h := by
    have := State.waiting_withdrawn hq
    omega

/-- R170: fuel for every waiting request leaves none held whose lane has room. -/
theorem State.nextAdmitted_admitHeld : ∀ (n : Nat) (s : State), s.waiting ≤ n → (s.admitHeld n).nextAdmitted = none
  | 0, s, h => by
    have held : s.path.held = [] := List.eq_nil_of_length_eq_zero (by unfold State.waiting at h; omega)
    exact State.nextAdmitted_eq_none.mpr fun r hr => by
      rw [State.admitHeld, held] at hr
      cases hr
  | n + 1, s, h => by
    cases hq : s.nextAdmitted with
    | none => rwa [State.admitHeld_none hq]
    | some q =>
      have k := waiting_keptByAdmission n
      have fewer := State.waiting_withdrawn hq
      obtain ⟨-, -, -, -, room⟩ := State.nextAdmitted_spec hq
      rw [State.admitHeld_some hq]
      exact State.nextAdmitted_admitHeld n _
        (k.arrive (k.admitHeld n) ((s.hasRoom_withdrawn q q.1).trans room) q.1 (by omega))

theorem State.settleHeld_full (s : State) :
    ∀ r ∈ s.settleHeld.path.held, s.settleHeld.hasRoom (s.settleHeld.laneOf r) = false :=
  State.nextAdmitted_eq_none.mp (State.nextAdmitted_admitHeld _ s (Nat.le_refl _))

end Sys2Proof.Machine
end

section
/-! PROOF. O12: the path unit within its capacities, its outstanding counts true, and the held requests lawful (R170, R178
to R180, section 9.3). -/

namespace Sys2Proof.Machine

/-! ### Capacities and counts -/

theorem State.issuedOn_eq (s : State) (l : Lane) :
    s.issuedOn l = (s.path.issued.map Issued.lane).countP fun k => decide (k = l) := by
  rw [State.issuedOn, List.countP_map]
  rfl

namespace State.PathLaw

variable {s t : State}

theorem of_frame (f : PathFrame s t) (h : s.PathLaw) : t.PathLaw where
  img := f.queues ▸ h.img
  ctl := f.queues ▸ h.ctl
  blk := f.queues ▸ h.blk
  issued := by
    have length := congrArg List.length f.issuers
    simp only [List.length_map] at length
    exact length ▸ h.issued
  guard := f.guard ▸ h.guard
  lanes l := f.bounded l (h.lanes l)
  outstanding l := by rw [f.outstanding, h.outstanding, State.issuedOn_eq, State.issuedOn_eq, f.issuers]

theorem queue (h : s.PathLaw) (l : UpLane) : (s.path.queues.get l).length ≤ l.capacity := by
  cases l
  · exact h.img
  · exact h.ctl
  · exact h.blk

/-- R170: a queue replaced by one that fits its lane. -/
theorem setQueue (h : s.PathLaw) {l : UpLane} {v : List Queued} (hv : v.length ≤ l.capacity) :
    (s.setQueue l v).PathLaw := by
  cases l
  · exact { h with img := hv }
  · exact { h with ctl := hv }
  · exact { h with blk := hv }

theorem enqueue (h : s.PathLaw) {l : UpLane} (hroom : s.hasRoom l = true) (q : Queued) : (s.enqueue l q).PathLaw := by
  have room : (s.path.queues.get l).length < l.capacity := of_decide_eq_true hroom
  exact h.setQueue (by rw [List.length_append]; exact room)

/-- R178: the guard count stays within its top. -/
theorem guardAfter (h : s.PathLaw) (l : Lane) : s.guardAfter l ≤ 16 := by
  unfold State.guardAfter
  split
  · exact Nat.zero_le 16
  · split
    · exact h.guard
    · exact Nat.min_le_left _ _

/-- R179: a request of a lane leaves on the D-port, while the issued list has room. -/
theorem issue (h : s.PathLaw) (hroom : s.path.issued.length < 128) (r : Request) (i : Issued) :
    ((s.charge i.lane).send r i).PathLaw where
  img := h.img
  ctl := h.ctl
  blk := h.blk
  issued := by simpa [State.send_issued, State.charge_issued] using hroom
  guard := h.guardAfter i.lane
  lanes l := by
    have bounded := h.lanes l
    show ((s.setLane i.lane _).lane l).Bounded
    by_cases hl : l = i.lane
    · subst hl
      rw [State.lane_setLane_same]
      exact ⟨(Nat.sub_le _ _).trans bounded.1, fun hs => by rw [bounded.2 hs]⟩
    · rwa [State.lane_setLane_ne _ _ hl]
  outstanding l := by
    have counted : ((s.charge i.lane).send r i).issuedOn l = s.issuedOn l + if i.lane = l then 1 else 0 := by
      simp [State.issuedOn, State.send_issued, State.charge_issued, List.countP_singleton]
    have count := h.outstanding l
    rw [counted]
    show ((s.setLane i.lane _).lane l).outstanding = _
    by_cases hl : l = i.lane
    · subst hl
      simp [count]
    · rw [State.lane_setLane_ne _ _ hl, count, if_neg (Ne.symm hl), Nat.add_zero]

/-- R180: an answered request leaves the issued list and its lane's count. -/
theorem settleIssued (h : s.PathLaw) {i : Issued} {before after : List Issued}
    (hl : s.path.issued = before ++ i :: after) : (s.settleIssued i (before ++ after)).PathLaw where
  img := h.img
  ctl := h.ctl
  blk := h.blk
  issued := by
    have all := h.issued
    rw [hl] at all
    simp only [List.length_append, List.length_cons] at all
    show (before ++ after).length ≤ 128
    rw [List.length_append]
    omega
  guard := h.guard
  lanes l := by
    have bounded := h.lanes l
    show ((State.setLane i.lane _ _).lane l).Bounded
    by_cases hk : l = i.lane
    · subst hk
      rw [State.lane_setLane_same]
      exact bounded
    · rwa [State.lane_setLane_ne _ _ hk]
  outstanding l := by
    have counted : s.issuedOn l = (s.settleIssued i (before ++ after)).issuedOn l + if i.lane = l then 1 else 0 := by
      have left : (s.settleIssued i (before ++ after)).path.issued = before ++ after := rfl
      simp [State.issuedOn, hl, left, List.countP_cons, Nat.add_assoc]
    have count := h.outstanding l
    show ((State.setLane i.lane _ _).lane l).outstanding = _
    by_cases hk : l = i.lane
    · subst hk
      rw [State.lane_setLane_same]
      show (s.lane i.lane).outstanding - 1 = _
      rw [count, counted, if_pos rfl, Nat.add_sub_cancel]
    · rw [State.lane_setLane_ne _ _ hk]
      exact count.trans (counted.trans (by rw [if_neg (Ne.symm hk), Nat.add_zero]))

end State.PathLaw

theorem pathLaw_keptByAdmission : KeptByAdmission State.PathLaw where
  same _ _ hp h := h.of_frame (.of_path hp)
  record s bs h := h.of_frame (s.takeRecord_pathFrame bs)
  enqueue _ _ q hroom h := h.enqueue hroom q
  withdraw s q _ h := by
    obtain he | ⟨r, before, after, -, -, he⟩ := s.withdrawn_cases q <;> rw [he] <;> exact { h with }

/-! ### Held requests -/

/-- R170: at most one request is held for each class tag. -/
def State.OneHeldPerClass (s : State) : Prop := (s.path.held.map Request.classTag).Nodup

/-- R170: a request presented in the place of one that arrives is of the class that has become free. -/
theorem State.OneHeldPerClass.withdrawn {s : State} (h : s.OneHeldPerClass) {q : Request × List Request}
    (hq : s.nextAdmitted = some q) : (s.withdrawn q).OneHeldPerClass := by
  obtain ⟨before, after, held, left, -⟩ := State.nextAdmitted_spec hq
  unfold State.OneHeldPerClass at h
  rw [held, List.map_append, List.map_cons] at h
  obtain ⟨fresh, others⟩ := List.nodup_cons.mp (List.nodup_middle.mp h)
  rw [← List.map_append, ← left] at fresh others
  unfold State.OneHeldPerClass
  obtain he | ⟨r, _, _, -, cls, he⟩ := s.withdrawn_cases q <;> rw [he]
  · exact others
  · rw [List.map_append, List.map_singleton, cls]
    exact List.nodup_append_comm.mp (List.nodup_cons.mpr ⟨fresh, others⟩)

theorem oneHeldPerClass_keptByAdmission : KeptByAdmission State.OneHeldPerClass where
  same s t hp h := by
    unfold State.OneHeldPerClass
    rwa [hp]
  record s bs h := by
    unfold State.OneHeldPerClass
    rwa [(s.takeRecord_pathFrame bs).held]
  enqueue _ _ _ _ h := h
  withdraw _ _ hq h := h.withdrawn hq

/-- R170: the law speaks of the held requests, the queues and the lane map alone. -/
theorem State.HoldingLaw.of_same {s t : State} (h : s.HoldingLaw) (hh : t.path.held = s.path.held)
    (hq : t.path.queues = s.path.queues) (hm : t.setup.laneMap = s.setup.laneMap) : t.HoldingLaw where
  one := hh ▸ h.one
  full r hr := by
    rw [State.laneOf_of_map hm, State.hasRoom, hq]
    exact h.full r (hh ▸ hr)

/-- R170: once the held requests that can arrive have arrived, the law holds. -/
theorem State.OneHeldPerClass.settleHeld {s : State} (h : s.OneHeldPerClass) : s.settleHeld.HoldingLaw :=
  ⟨oneHeldPerClass_keptByAdmission.settleHeld h, s.settleHeld_full⟩

/-! ### Issues -/

theorem State.room_of_eligible {s : State} {l : Lane} (h : s.eligible l = true) : s.path.issued.length < 128 := by
  simp only [State.eligible, Bool.and_eq_true, decide_eq_true_eq] at h
  exact h.2

theorem State.eligible_of_granted {s : State} {l : Lane} (h : s.granted = some l) : s.eligible l = true := by
  unfold State.granted at h
  split at h
  · rename_i hg
    exact Option.some.inj h ▸ hg.2
  · exact List.find?_some h

/-- What a lane is charged is a matter of the path unit. -/
theorem State.charge_path_congr {s t : State} (h : t.path = s.path) (l : Lane) :
    (t.charge l).path = (s.charge l).path := by
  simp only [State.charge, State.setLane, State.lane, State.guardAfter, h]

/-- R179, R182: what the issue of a record does to the path unit. -/
theorem State.issueInjected_sent {s : State} {tag : Nat} {q : Record × List ReportEntry}
    (ht : freeTag s.path.issued = some tag) (hq : issueOldest tag s.report.queue = some q) :
    s.issueInjected.path =
      ((s.charge .rpt).send (injectedWrite (s.recordAddress q.1) tag q.1) (Issued.ofRecord tag)).path := by
  have charged := State.charge_path_congr (t := State.spendFree { s with
    report := { s.report with queue := q.2 }, tally := s.tally.recordIssued q.1 }) (s := s) (State.spendFree_path _) .rpt
  simp only [State.issueInjected, ht, hq, State.send, State.sendDown, charged]
  rfl

theorem State.issueInjected_path (s : State) : s.issueInjected = s ∨
    ∃ r tag, s.issueInjected.path = ((s.charge .rpt).send r (Issued.ofRecord tag)).path := by
  cases ht : freeTag s.path.issued with
  | none => exact .inl (by rw [State.issueInjected, ht])
  | some tag =>
    cases hq : issueOldest tag s.report.queue with
    | none => exact .inl (by simp only [State.issueInjected, ht, hq])
    | some q => exact .inr ⟨_, tag, State.issueInjected_sent ht hq⟩

/-! ### The laws together -/

/-- The laws of the path unit and of the requests held at the U-port. -/
structure State.PortLaw (s : State) : Prop where
  path    : s.PathLaw
  holding : s.HoldingLaw

namespace State.PortLaw

variable {s t : State}

theorem of_frame (h : s.PortLaw) (f : PortFrame s t) : t.PortLaw :=
  ⟨h.path.of_frame f.toPathFrame, h.holding.of_same f.held f.queues f.laneMap⟩

/-- R170: an event after which held requests may arrive. -/
theorem settled (h : t.PathLaw) (ho : t.OneHeldPerClass) : t.settleHeld.PortLaw :=
  ⟨pathLaw_keptByAdmission.settleHeld h, ho.settleHeld⟩

/-- R168 to R170: a request presented at the U-port waits behind one of its class, arrives, or is held. -/
theorem present (h : s.PortLaw) (r : Request) : (s.present r).PortLaw := by
  unfold State.present
  split
  · exact ⟨{ h.path with }, { h.holding with }⟩
  · rename_i hclass
    split
    · rename_i hroom
      have path := pathLaw_keptByAdmission
      have one := oneHeldPerClass_keptByAdmission
      exact settled (path.arrive (fun _ => path.settleHeld) hroom r h.path)
        (one.arrive (fun _ => one.settleHeld) hroom r h.holding.one)
    · rename_i hroom
      refine ⟨{ h.path with }, ?_, fun q hq => ?_⟩
      · have fresh : r.classTag ∉ s.path.held.map Request.classTag := by simpa using hclass
        rw [List.map_append, List.map_singleton]
        exact List.nodup_append_comm.mp (List.nodup_cons.mpr ⟨fresh, h.holding.one⟩)
      · obtain hq | hq := List.mem_append.mp hq
        · exact h.holding.full q hq
        · rw [List.mem_singleton.mp hq]
          exact Bool.eq_false_iff.mpr hroom

/-! #### Issue and response -/

/-- R179: a U-port lane's issue, after which held requests may arrive. -/
theorem issueForward (h : s.PortLaw) (hroom : s.path.issued.length < 128) (l : UpLane) :
    (s.issueForward l).settleHeld.PortLaw := by
  have one : (s.issueForward l).OneHeldPerClass := by
    unfold State.OneHeldPerClass
    rw [(s.issueForward_event l).held]
    exact h.holding.one
  refine settled ?_ one
  unfold State.issueForward
  split
  · exact h.path
  · rename_i q rest hq
    have fits := h.path.queue l
    rw [hq] at fits
    exact (h.path.issue hroom q.request { lane := l.toLane, source := q.request.source, tag := q.request.tag
                                          kind := q.request.kind, plan := q.plan, link := .forwarded }).setQueue
      (Nat.le_of_succ_le fits)

/-- R179, R182: RPT's issue touches no queue. -/
theorem issueInjected (h : s.PortLaw) (hroom : s.path.issued.length < 128) : s.issueInjected.PortLaw := by
  obtain he | ⟨r, tag, hp⟩ := s.issueInjected_path
  · rwa [he]
  · exact ⟨(h.path.issue hroom r (Issued.ofRecord tag)).of_frame (.of_path hp),
      h.holding.of_same (by rw [hp]; rfl) (by rw [hp]; rfl) (by rw [s.issueInjected_setup])⟩

/-- R177 to R179: the arbiter's next issue; a lane is eligible only while the issued list has room. -/
theorem issueNext (h : s.PortLaw) : s.issueNext.PortLaw := by
  unfold State.issueNext
  split
  · rename_i l hl
    have room := State.room_of_eligible (State.eligible_of_granted hl)
    cases l with
    | img => exact h.issueForward room .img
    | ctl => exact h.issueForward room .ctl
    | blk => exact h.issueForward room .blk
    | rpt => exact h.issueInjected room
  · exact h

/-- R180, R175: a response. -/
theorem takeResponse (h : s.PortLaw) (source : BitVec 4) (tag : BitVec 8) (st : Status) (data : List Byte) :
    (s.takeResponse source tag st data).PortLaw := by
  have returned : ∀ (t : State) (u : UpReturn), t.PortLaw → (t.sendUp u).PortLaw := fun t u ht =>
    ht.of_frame ⟨⟨rfl, rfl, rfl, rfl, rfl, fun _ hb => hb, fun _ => rfl⟩, rfl⟩
  unfold State.takeResponse
  split
  · rename_i q hq
    obtain ⟨before, after, hl, hrest, -, -⟩ := matchIssued_spec (i := q.1) (rest := q.2) hq
    have settled : (s.settleIssued q.1 q.2).PortLaw :=
      ⟨hrest ▸ h.path.settleIssued hl, h.holding.of_same rfl rfl rfl⟩
    have delivered : ((s.settleIssued q.1 q.2).deliver q.1 st data).PortLaw := by
      unfold State.deliver
      split
      · exact settled.of_frame (.of_path (State.recordAnswered_path _ _ _) (by rw [State.recordAnswered_setup]))
      · exact settled
      · split <;> exact returned _ _ settled
    exact delivered.of_frame (State.closeLaneIfDue_port _ _)
  · split
    · exact h
    · exact returned _ _ h

/-! #### Commands and steps -/

/-- Every command keeps both laws. -/
theorem exec (h : s.PortLaw) (c : Instr) (e : exec c s = .next t) : t.PortLaw := by
  cases c <;> injection e with e <;> subst e
  case pinReset straps =>
    have reset : (State.resetWith straps).PortLaw := ⟨State.pathLaw_resetWith straps, State.holdingLaw_resetWith straps⟩
    exact reset.of_frame (.of_path rfl rfl)
  case requestPresentation r => exact h.present r
  case requestArrival r => exact h.present r
  case heldRequestArrival => exact settled h.path h.holding.one
  case imageWrite r => exact h.present r
  case setupWrite r => exact h.present r
  case memoryMap m => exact h.of_frame (s.takeMemoryMap_port m)
  case sourceTable m => exact h.of_frame (s.takeSourceTable_port m)
  case laneMap m =>
    have f := PathFrame.of_path (s.takeLaneMap_path m)
    exact settled (h.path.of_frame f) (oneHeldPerClass_keptByAdmission.same _ _ (s.takeLaneMap_path m) h.holding.one)
  case alarm mask => exact h.of_frame (.of_path rfl rfl)
  case correction m => exact h.of_frame (s.takeCorrection_port m)
  case classTest m => exact h.of_frame (s.takeClassTest_port m)
  case geometry m => exact h.of_frame (s.takeGeometry_port m)
  case decision m => exact h.of_frame (s.takeDecision_port m)
  case traySet m => exact h.of_frame (s.takeTraySet_port m)
  case run => exact h.of_frame s.directRun_port
  case drain => exact h.of_frame s.directDrain_port
  case stby => exact h.of_frame s.directStby_track.status.port
  case clrs => exact h.of_frame (.of_path rfl rfl)
  case tclose => exact h.of_frame (s.requestClose_track _).status.port
  case csusp => exact h.of_frame (.of_path rfl rfl)
  case cres => exact h.of_frame (.of_path rfl rfl)
  case crel => exact h.of_frame (.of_path rfl rfl)
  case lopen o => exact h.of_frame (s.directLopen_port o)
  case lclose o => exact h.of_frame (s.directLclose_port o)
  case restart => exact h.of_frame s.directRestart_port
  case drainEnd => exact h.of_frame s.drainEndIfDue_track.status.port
  case dispatchRead r => exact h.present r
  case printRead r => exact h.present r
  case liveRead r => exact h.present r
  case exitWrite r => exact h.present r
  case printStatusWrite r => exact h.present r
  case grant l n => exact h.of_frame (s.takeGrant_port l (by omega))
  case credit l n => exact h.of_frame (s.takeCredit_port l _)
  case drop l => exact h.of_frame (s.takeDrop_port l)
  case issue => exact h.issueNext
  case response source tag st data => exact h.takeResponse source tag st data
  case pendingClose => exact h.of_frame (.of_path (by simp) (by simp))
  case trayRecordJoining => exact h.of_frame (.of_path (by simp) (by simp))
  case close l => exact h.of_frame (s.closeLaneIfDue_port l)

end State.PortLaw

/-- Settles O12: what waits at the U-port arrives as soon as its lane has room, and whatever is issued or answered is
counted on its lane. -/
theorem stepKeepsPathLaw : Obligations.StepKeepsPathLaw := by
  intro s t hp hh e
  have law : t.PortLaw := by
    unfold step at e
    split at e
    · injection e with e
      exact e ▸ ⟨hp, hh⟩
    · rename_i c rest _
      have taken : State.PortLaw { s with pending := rest } := ⟨{ hp with }, { hh with }⟩
      exact taken.exec c e
  exact ⟨law.path, law.holding⟩

end Sys2Proof.Machine
end

section
/-! PROOF. O20, O21: the lane that the arbiter grants, and how long BLK waits (R177, R178). -/

namespace Sys2Proof.Machine

/-! ### Eligible lanes (R177) -/

theorem State.eligible_iff {s : State} {l : Lane} : s.eligible l = true ↔
    (s.lane l).state = .up ∧ 1 ≤ (s.lane l).credits ∧ s.hasRequest l = true ∧ s.path.issued.length < 128 := by
  simp only [State.eligible, Bool.and_eq_true, decide_eq_true_eq, and_assoc]
  rfl

theorem State.hasRequest_upLane {s : State} {l : UpLane} :
    s.hasRequest l.toLane = true ↔ s.path.queues.get l ≠ [] := by
  cases l <;> simp [UpLane.toLane, State.hasRequest, LaneQueues.get]

/-- R182: a tag is free just where one of 0 to 7 is the lowest free one. -/
theorem isSome_freeTag {s : State} : (freeTag s.path.issued).isSome = true ↔ ∃ tag, s.LowestFreeTag tag := by
  refine ⟨fun h => ?_, fun ⟨tag, h⟩ => by rw [freeTag_of_lowest h]; rfl⟩
  obtain ⟨tag, htag⟩ := Option.isSome_iff_exists.mp h
  obtain ⟨low, free, taken⟩ := freeTag_spec htag
  have notTaken : tag ∉ s.path.issued.filterMap Issued.injectedTag := fun hm => by
    rw [tagTaken_iff.mpr hm] at free
    cases free
  exact ⟨tag, low, notTaken, fun t ht => tagTaken_iff.mp (taken t ht)⟩

theorem State.hasRequest_rpt {s : State} : s.hasRequest .rpt = true ↔
    (∃ e ∈ s.report.queue, e.state = .waiting) ∧ ∃ tag, s.LowestFreeTag tag := by
  rw [State.hasRequest, Bool.and_eq_true, isSome_freeTag]
  simp [Report.hasWaiting]

/-! ### The grant (R177, R178) -/

theorem State.granted_guarded {s : State} (hg : s.path.guard = 16) (hb : s.eligible .blk = true) :
    s.granted = some .blk :=
  if_pos ⟨hg, hb⟩

theorem find?_cons_eq_ite {α : Type} (p : α → Bool) (a : α) (l : List α) :
    (a :: l).find? p = if p a = true then some a else l.find? p := by
  rw [List.find?_cons]
  cases p a <;> rfl

theorem State.granted_by_priority {s : State} (h : s.path.guard ≠ 16 ∨ s.eligible .blk = false) : s.granted =
    if s.eligible .img = true then some .img
    else if s.eligible .ctl = true then some .ctl
    else if s.eligible .rpt = true then some .rpt
    else if s.eligible .blk = true then some .blk
    else none := by
  have unguarded : ¬ (s.path.guard = guardMax ∧ s.eligible .blk = true) := fun ⟨hg, hb⟩ =>
    h.elim (· hg) fun hn => by rw [hb] at hn; cases hn
  rw [State.granted, if_neg unguarded]
  simp only [find?_cons_eq_ite, List.find?_nil]

/-- R178: a lane is granted while BLK is eligible. -/
theorem State.granted_ne_none {s : State} (hb : s.eligible .blk = true) : s.granted ≠ none := by
  unfold State.granted
  split
  · exact Option.some_ne_none _
  · exact fun hn => List.find?_eq_none.mp hn .blk (by simp) hb

/-- Settles O20, by what makes a lane eligible and by whether BLK's guard stands at its top. -/
theorem arbiterGrantsByPriorityAndGuard : Obligations.ArbiterGrantsByPriorityAndGuard := by
  refine ⟨fun s l => ?_, fun s => ?_, fun s hg hb => State.granted_guarded hg hb,
    fun s h => State.granted_by_priority h, fun s h => ?_⟩
  · rw [State.eligible_iff, State.hasRequest_upLane]
  · rw [State.eligible_iff, State.hasRequest_rpt, and_assoc]
  · refine congrArg Host.Outcome.next ?_
    rw [State.issueNext, h]

/-! ### The guard count (R178) -/

/-- R170, R171: no arrival touches the guard count. -/
theorem guard_keptByAdmission (g : Nat) : KeptByAdmission fun s => s.path.guard = g where
  same s t hp h := by rw [hp, h]
  record s bs h := (s.takeRecord_pathFrame bs).guard.trans h
  enqueue _ _ _ _ h := h
  withdraw s q _ h := by
    obtain he | ⟨r, before, after, -, -, he⟩ := s.withdrawn_cases q <;> rw [he] <;> exact h

/-- R140: with an entry WAITING, one is issued. -/
theorem issueOldest_ne_none {tag : Nat} {l : List ReportEntry} (h : ∃ e ∈ l, e.state = .waiting) :
    issueOldest tag l ≠ none := by
  induction l with
  | nil =>
    obtain ⟨e, he, -⟩ := h
    cases he
  | cons x xs ih =>
    cases hx : x.state with
    | waiting => simp [issueOldest, hx]
    | issued t =>
      have younger : ∃ e ∈ xs, e.state = .waiting := by simpa [hx] using h
      obtain ⟨q, hq⟩ := Option.ne_none_iff_exists'.mp (ih younger)
      simp [issueOldest, hx, hq]

/-- R178: an issue advances the guard count by its lane. -/
theorem State.issueLane_guard {s : State} {l : Lane} (hl : s.hasRequest l = true) :
    (s.issueLane l).path.guard = s.guardAfter l := by
  have forward : ∀ u : UpLane, s.hasRequest u.toLane = true →
      (s.issueForward u).settleHeld.path.guard = s.guardAfter u.toLane := fun u hu => by
    obtain ⟨q, rest, hq⟩ := List.exists_cons_of_ne_nil (State.hasRequest_upLane.mp hu)
    rw [State.issueForward_eq_forwarded hq]
    exact (guard_keptByAdmission _).settleHeld rfl
  cases l with
  | img => exact forward .img hl
  | ctl => exact forward .ctl hl
  | blk => exact forward .blk hl
  | rpt =>
    obtain ⟨waits, free⟩ := State.hasRequest_rpt.mp hl
    obtain ⟨tag, ht⟩ := Option.isSome_iff_exists.mp (isSome_freeTag.mpr free)
    obtain ⟨q, hq⟩ := Option.ne_none_iff_exists'.mp (issueOldest_ne_none (tag := tag) waits)
    exact congrArg PathUnit.guard (State.issueInjected_sent ht hq)

/-- R178: a grant that passes over an eligible BLK brings its guard one nearer to the top. -/
theorem State.issueNext_guard {s : State} (hb : s.eligible .blk = true) (hn : s.granted ≠ some .blk) :
    s.issueNext.path.guard = min 16 (s.path.guard + 1) := by
  obtain ⟨l, hl⟩ := Option.ne_none_iff_exists'.mp (State.granted_ne_none hb)
  obtain ⟨-, -, request, -⟩ := State.eligible_iff.mp (State.eligible_of_granted hl)
  obtain ⟨-, -, blkRequest, -⟩ := State.eligible_iff.mp hb
  have other : l ≠ .blk := fun h => hn (h ▸ hl)
  have queued : s.path.queues.blk ≠ [] := State.hasRequest_upLane (l := .blk).mp blkRequest
  rw [State.issueNext, hl]
  exact (State.issueLane_guard request).trans (by rw [State.guardAfter, if_neg other, if_neg queued, guardMax])

/-- Settles O21: sixteen grants that pass over BLK take its guard to 16, where BLK is granted first. -/
theorem blkIsGrantedWithinSeventeenGrants : Obligations.BlkIsGrantedWithinSeventeenGrants := by
  intro σ hg hstep hb
  by_contra hn
  have passed : ∀ k < 17, (σ k).granted ≠ some .blk := fun k hk h => hn ⟨k, hk, h⟩
  have guard : ∀ k ≤ 16, k ≤ (σ k).path.guard ∧ (σ k).path.guard ≤ 16 := by
    intro k
    induction k with
    | zero => exact fun _ => ⟨Nat.zero_le _, hg⟩
    | succ k ih =>
      intro hk
      obtain ⟨low, high⟩ := ih (by omega)
      have next : (σ k).issueNext = σ (k + 1) := Host.Outcome.next.inj (hstep k (by omega))
      rw [← next, State.issueNext_guard (hb k (by omega)) (passed k (by omega))]
      omega
  obtain ⟨low, high⟩ := guard 16 (Nat.le_refl 16)
  exact passed 16 (by omega) (State.granted_guarded (by omega) (hb 16 (by omega)))

end Sys2Proof.Machine
end

section
/-! PROOF. O22: an issue of a U-port lane, and the held request it lets in (R170, R178, R179). -/

namespace Sys2Proof.Machine

theorem State.issueNext_forwarded {s : State} {l : UpLane} {q : Queued} {rest : List Queued}
    (hg : s.granted = some l.toLane) (hq : s.path.queues.get l = q :: rest) :
    s.issueNext = (s.forwarded l q rest).settleHeld := by
  rw [State.issueNext, hg, ← State.issueForward_eq_forwarded hq]
  cases l <;> rfl

/-- R170: an issue leaves its lane's queue with the requests that are not sent. -/
theorem State.hasRoom_forwarded {s : State} {l : UpLane} {q : Queued} {rest : List Queued}
    (h : rest.length < l.capacity) : (s.forwarded l q rest).hasRoom l = true := by
  have left : (s.forwarded l q rest).path.queues.get l = rest := LaneQueues.get_set_same _ _ _
  rw [State.hasRoom, left]
  exact decide_eq_true h

/-- Settles O22: with nothing held an issue is all there is; a sole held request of the lane finds the place it frees. -/
theorem issueSendsTheOldestRequest : Obligations.IssueSendsTheOldestRequest := by
  refine ⟨fun s l q rest hg hq hh => ?_, fun s l q rest r hg hq hr hheld hbehind hl h => ?_⟩ <;>
    refine congrArg Host.Outcome.next ((State.issueNext_forwarded hg hq).trans ?_)
  · exact State.settleHeld_of_held_nil hh
  · have room : (s.forwarded l q rest).hasRoom ((s.forwarded l q rest).laneOf r) = true :=
      hl.symm ▸ State.hasRoom_forwarded hr
    exact State.settleHeld_sole (s := s.forwarded l q rest) hheld hbehind room h

end Sys2Proof.Machine
end

section
/-! PROOF. O24: the response of a forwarded request, and the substitution point (R175, R180, R181). -/

namespace Sys2Proof.Machine

/-! ### The substitution point (R181) -/

@[simp] theorem substitute_nil (data : List Byte) : substitute [] data = data := rfl

@[simp] theorem substitute_cons (p : Nat × Byte) (plan : FillPlan) (data : List Byte) :
    substitute (p :: plan) data = substitute plan (data.set p.1 p.2) := rfl

theorem length_substitute (plan : FillPlan) (data : List Byte) : (substitute plan data).length = data.length := by
  induction plan generalizing data with
  | nil => rfl
  | cons p plan ih => rw [substitute_cons, ih, List.length_set]

/-- R181: a byte that the plan does not list is memory's. -/
theorem getElem?_substitute_of_notMem {plan : FillPlan} {k : Nat} (h : k ∉ plan.map Prod.fst) (data : List Byte) :
    (substitute plan data)[k]? = data[k]? := by
  induction plan generalizing data with
  | nil => rfl
  | cons p plan ih =>
    rw [List.map_cons, List.mem_cons, not_or] at h
    rw [substitute_cons, ih h.2, List.getElem?_set_ne (Ne.symm h.1)]

/-- R181: a byte that the plan lists once is the plan's. -/
theorem getElem?_substitute_of_mem {plan : FillPlan} {k : Nat} {b : Byte} (hd : (plan.map Prod.fst).Nodup)
    (h : (k, b) ∈ plan) (data : List Byte) (hk : k < data.length) : (substitute plan data)[k]? = some b := by
  induction plan generalizing data with
  | nil => cases h
  | cons p plan ih =>
    obtain ⟨once, others⟩ := List.nodup_cons.mp hd
    rw [substitute_cons]
    obtain rfl | h := List.mem_cons.mp h
    · rw [getElem?_substitute_of_notMem once, List.getElem?_set_self hk]
    · exact ih others h _ (by rwa [List.length_set])

/-! ### The response -/

/-- R180: what is returned upstream joins the log and nothing else. -/
theorem State.answered_sendUp (s : State) (l : Lane) (others : List Issued) (u : UpReturn) :
    (s.sendUp u).answered l others [] = s.answered l others [u] := by
  unfold State.answered
  simp only [State.sendUp, List.append_nil]
  rfl

/-- R180, R181: what the response of a forwarded request returns upstream. -/
def Issued.returned (i : Issued) (status : Status) (data : List Byte) : UpReturn :=
  { source := i.source, tag := i.tag, status := status
    data := match i.kind with
      | .read => substitute i.plan data
      | .write => [] }

theorem State.deliver_forwarded {i : Issued} (hl : i.link = .forwarded) (status : Status) (data : List Byte)
    (s : State) : s.deliver i status data = s.sendUp (i.returned status data) := by
  rw [State.deliver, hl]
  cases hk : i.kind <;> simp only [Issued.returned, hk]

/-- Settles O24: the request leaves the issued list, its return goes upstream, and its lane closes if it is due. -/
theorem responseReturnsUpstream : Obligations.ResponseReturnsUpstream := by
  refine ⟨fun s source tag status data before after i h hl => ?_, fun plan data hd =>
    ⟨length_substitute plan data, fun k b hm hk => getElem?_substitute_of_mem hd hm data hk,
      fun k hk => getElem?_substitute_of_notMem hk data⟩⟩
  obtain ⟨-, rfl, rfl, -⟩ := id h
  refine congrArg Host.Outcome.next ((State.takeResponse_matched h status data).trans ?_)
  rw [State.deliver_forwarded hl]
  exact (State.settleIssued_closeLaneIfDue (s.sendUp (i.returned status data)) i (before ++ after)).trans
    (s.answered_sendUp i.lane (before ++ after) (i.returned status data))

end Sys2Proof.Machine
end

section
/-! PROOF. O17, O18: GRANT and CREDIT (R173, R174). -/

namespace Sys2Proof.Machine

theorem toNat_eq_zero_iff {n : BitVec 6} : n.toNat = 0 ↔ n = 0 := by
  exact BitVec.toNat_inj (y := 0)

/-! ### GRANT and DROP (R173, R176) -/

theorem State.lane_takeDrop (s : State) (l : Lane) :
    (s.takeDrop l).lane l = { s.lane l with state := .down, credits := 0 } := State.lane_setLane_same _ _ _

theorem State.setLane_setLane (s : State) (l : Lane) (u v : LaneUnit) : (s.setLane l u).setLane l v = s.setLane l v := by
  simp only [State.setLane, PerLane.set_set]

/-- R176: a DROP leaves nothing of what the lane was but its outstanding count. -/
theorem State.takeDrop_setLane (s : State) (l : Lane) {u : LaneUnit} (h : u.outstanding = (s.lane l).outstanding) :
    (s.setLane l u).takeDrop l = s.takeDrop l := by
  simp only [State.takeDrop, State.lane_setLane_same, h, State.setLane_setLane]

theorem State.takeDrop_takeDrop (s : State) (l : Lane) : (s.takeDrop l).takeDrop l = s.takeDrop l := by
  have dropped := State.takeDrop_setLane s l (u := { s.lane l with state := .down, credits := 0 }) rfl
  exact (congrArg (State.raise .laneDrop) dropped).trans (State.raise_raise _ _)

/-- R173: a GRANT of 0 in OPENING is a DROP. -/
theorem State.takeGrant_opening {s : State} {l : Lane} (h : (s.lane l).state = .opening) (n : Nat) :
    s.takeGrant l n = if n = 0 then s.takeDrop l else s.setLane l { s.lane l with state := .up, credits := n } :=
  if_pos h

theorem State.takeGrant_ignored {s : State} {l : Lane} (h : (s.lane l).state ≠ .opening) (n : Nat) :
    s.takeGrant l n = s :=
  if_neg h

/-- R173: a DROP undoes whatever a GRANT did. -/
theorem State.takeDrop_takeGrant {s : State} {l : Lane} (h : (s.lane l).state = .opening) (n : Nat) :
    (s.takeGrant l n).takeDrop l = s.takeDrop l := by
  rw [State.takeGrant_opening h]
  split
  · exact s.takeDrop_takeDrop l
  · exact s.takeDrop_setLane l rfl

/-- Settles O17: GRANT by the lane's state and its count, and then both orders of a GRANT and a DROP. -/
theorem grantOpensOrDropsAnOpeningLane : Obligations.GrantOpensOrDropsAnOpeningLane := by
  refine ⟨fun l n s => congrArg Host.Outcome.next ?_, fun l n s h => ?_⟩
  · split
    · rename_i h
      rw [State.takeGrant_opening h]
      simp only [toNat_eq_zero_iff]
      rfl
    · rename_i h
      exact State.takeGrant_ignored h n.toNat
  · have down : ((s.takeDrop l).lane l).state = .down := by rw [State.lane_takeDrop]
    refine ⟨s.takeGrant l n.toNat, s.takeDrop l, rfl, congrArg Host.Outcome.next (State.takeDrop_takeGrant h n.toNat), rfl,
      congrArg Host.Outcome.next (State.takeGrant_ignored ?_ n.toNat), down, by rw [State.lane_takeDrop], ?_⟩
    · rw [down]
      decide
    · simp [State.takeDrop, State.flagSet_raise]

/-! ### CREDIT (R174) -/

theorem State.takeCredit_eq (s : State) (l : Lane) (k : Nat) : s.takeCredit l k =
    if (s.lane l).state = .up ∨ (s.lane l).state = .closing then
      s.setLane l { s.lane l with credits := min 63 ((s.lane l).credits + k) }
    else s := by
  unfold State.takeCredit
  cases h : (s.lane l).state <;> simp [creditMax]

/-- A lane replaced by itself. -/
theorem State.setLane_self (s : State) (l : Lane) : s.setLane l (s.lane l) = s := by
  cases l <;> rfl

/-- R174: with no count and no more credits than the top, nothing is added. -/
theorem State.takeCredit_zero {s : State} {l : Lane} (h : (s.lane l).credits ≤ 63) : s.takeCredit l 0 = s := by
  rw [State.takeCredit_eq, Nat.add_zero, Nat.min_eq_right h]
  split
  · exact s.setLane_self l
  · rfl

/-- R174, R177: credit makes an UP lane with a waiting request eligible. -/
theorem State.eligible_takeCredit {s : State} {l : Lane} {k : Nat} (hup : (s.lane l).state = .up)
    (hr : s.hasRequest l = true) (hroom : s.path.issued.length < 128) (hk : k ≠ 0) :
    (s.takeCredit l k).eligible l = true := by
  rw [State.takeCredit_eq, if_pos (.inl hup), State.eligible_iff, State.lane_setLane_same]
  have request : ∀ u, (s.setLane l u).hasRequest l = s.hasRequest l := fun u => by cases l <;> rfl
  exact ⟨hup, by simp only; omega, (request _).trans hr, hroom⟩

/-- Settles O18: CREDIT by the lane's state, its count 0, the lane it makes eligible, and the CLOSE that ends the count. -/
theorem creditAddsUpToItsTop : Obligations.CreditAddsUpToItsTop := by
  refine ⟨fun l k s => congrArg Host.Outcome.next (s.takeCredit_eq l k.toNat),
    fun l s h => congrArg Host.Outcome.next (State.takeCredit_zero h), fun l k s t hup _ hr hroom hk e => ?_,
    fun l s hc ho => ⟨_, rfl, ?_⟩⟩
  · rw [← Host.Outcome.next.inj e]
    exact State.eligible_takeCredit hup hr hroom fun h0 => hk (toNat_eq_zero_iff.mp h0)
  · rw [State.closeLaneIfDue, if_pos ⟨hc, ho⟩, State.closeLane_idle ho]
    have closed : (s.path.lanes.set l ⟨.down, 0, 0⟩).get l = ⟨.down, 0, 0⟩ := PerLane.get_set_same _ _ _
    exact ⟨congrArg LaneUnit.state closed, congrArg LaneUnit.credits closed⟩

end Sys2Proof.Machine
end

section
/-! PROOF. O60: the lane messages of section 10.9 (R189). A message is three fields of its word: `decodeMessage` looks at
nothing else, and `linkMessage` puts each where it is read. -/

namespace Sys2Proof

/-! ### The lane field -/

theorem Lane.code_lt (l : Lane) : l.code < 4 := by
  cases l <;> decide

@[simp] theorem Lane.ofCode_code (l : Lane) : Lane.ofCode l.code = l := by
  cases l <;> rfl

theorem Lane.ofCode_congr {a b : Nat} (h : a % 4 = b % 4) : Lane.ofCode a = Lane.ofCode b := by
  simp only [Lane.ofCode, h]

/-! ### The word that is sent -/

theorem toNat_linkMessage {type : Nat} (ht : type < 8) (l : Lane) (n : BitVec 6) :
    (linkMessage type l n).toNat = type + 8 * l.code + 32 * n.toNat := by
  have := l.code_lt
  have := n.isLt
  rw [linkMessage, BitVec.toNat_ofNat]
  omega

theorem type_linkMessage {type : Nat} (ht : type < 8) (l : Lane) (n : BitVec 6) :
    (linkMessage type l n).toNat % 8 = type := by
  rw [toNat_linkMessage ht]
  omega

theorem lane_linkMessage {type : Nat} (ht : type < 8) (l : Lane) (n : BitVec 6) :
    Lane.ofCode ((linkMessage type l n).toNat / 8) = l := by
  have := l.code_lt
  rw [toNat_linkMessage ht, Lane.ofCode_congr (b := l.code) (by omega), Lane.ofCode_code]

theorem count_linkMessage {type : Nat} (ht : type < 8) (l : Lane) (n : BitVec 6) :
    BitVec.ofNat 6 ((linkMessage type l n).toNat / 32) = n := by
  have := l.code_lt
  rw [toNat_linkMessage ht, show (type + 8 * l.code + 32 * n.toNat) / 32 = n.toNat by omega, BitVec.ofNat_toNat,
    BitVec.setWidth_eq]

/-! ### The word that is received -/

theorem decodeMessage_grant {w : BitVec 16} (h : w.toNat % 8 = 3) :
    decodeMessage w = some (.grant (Lane.ofCode (w.toNat / 8)) (BitVec.ofNat 6 (w.toNat / 32))) := by
  simp [decodeMessage, h, messageGrant]

theorem decodeMessage_credit {w : BitVec 16} (h : w.toNat % 8 = 4) :
    decodeMessage w = some (.credit (Lane.ofCode (w.toNat / 8)) (BitVec.ofNat 6 (w.toNat / 32))) := by
  simp [decodeMessage, h, messageGrant, messageCredit]

theorem decodeMessage_drop {w : BitVec 16} (h : w.toNat % 8 = 5) :
    decodeMessage w = some (.drop (Lane.ofCode (w.toNat / 8))) := by
  simp [decodeMessage, h, messageGrant, messageCredit, messageDrop]

theorem decodeMessage_eq_none {w : BitVec 16} (h3 : w.toNat % 8 ≠ 3) (h4 : w.toNat % 8 ≠ 4) (h5 : w.toNat % 8 ≠ 5) :
    decodeMessage w = none := by
  simp [decodeMessage, h3, h4, h5, messageGrant, messageCredit, messageDrop]

/-- R189: bits 10 to 0 are all that is read. -/
theorem decodeMessage_congr {v w : BitVec 16} (h : v.toNat % 2048 = w.toNat % 2048) : decodeMessage v = decodeMessage w := by
  have type : v.toNat % 8 = w.toNat % 8 := by omega
  have lane : Lane.ofCode (v.toNat / 8) = Lane.ofCode (w.toNat / 8) := Lane.ofCode_congr (by omega)
  have count : BitVec.ofNat 6 (v.toNat / 32) = BitVec.ofNat 6 (w.toNat / 32) :=
    BitVec.eq_of_toNat_eq (by simp only [BitVec.toNat_ofNat]; omega)
  simp only [decodeMessage, type, lane, count]

theorem toNat_and_07ff (w : BitVec 16) : (w &&& 0x07ff#16).toNat = w.toNat % 2048 :=
  (BitVec.toNat_and ..).trans (Nat.and_two_pow_sub_one_eq_mod w.toNat 11)

/-- Section 10.9: what is written of a command is read back, lane and count. -/
theorem decodeMessage_encodeMessage {c : Instr} {w : BitVec 16} (h : encodeMessage c = some w) :
    decodeMessage w = some c := by
  cases c
  case grant l n =>
    obtain rfl : linkMessage 3 l n = w := Option.some.inj h
    rw [decodeMessage_grant (type_linkMessage (by decide) l n), lane_linkMessage (by decide),
      count_linkMessage (by decide)]
  case credit l k =>
    obtain rfl : linkMessage 4 l k = w := Option.some.inj h
    rw [decodeMessage_credit (type_linkMessage (by decide) l k), lane_linkMessage (by decide),
      count_linkMessage (by decide)]
  case drop l =>
    obtain rfl : linkMessage 5 l 0 = w := Option.some.inj h
    rw [decodeMessage_drop (type_linkMessage (by decide) l 0), lane_linkMessage (by decide)]
  all_goals cases h

/-! ### Words put before the queue -/

theorem decodeTableWord_message (w : BitVec 16) : decodeTableWord 16 w.toNat = decodeMessage w := by
  rw [decodeTableWord, if_pos rfl, BitVec.ofNat_toNat, BitVec.setWidth_eq]

end Sys2Proof

namespace Sys2Proof.Machine

theorem State.withFetchWord_some (s : State) {nbits w : Nat} {c : Instr} (h : decodeTableWord nbits w = some c) :
    s.withFetchWord nbits w = { s with pending := c :: s.pending } := by
  rw [State.withFetchWord, h]

theorem State.withFetchWord_none (s : State) {nbits w : Nat} (h : decodeTableWord nbits w = none) :
    s.withFetchWord nbits w = s := by
  rw [State.withFetchWord, h]

/-- Settles O60: a word is read by its three fields, sent or received, and waits as the command it spells. -/
theorem laneMessagesDecodeToTheirCommands : Obligations.LaneMessagesDecodeToTheirCommands := by
  refine ⟨fun c w => decodeMessage_encodeMessage, fun w => decodeMessage_congr ?ignored, fun w h => ?noCommand,
    fun l n => ⟨rfl, rfl, rfl⟩, decodeTableWord_message, fun nbits w h => if_neg h,
    fun s w c h => s.withFetchWord_some ((decodeTableWord_message w).trans h), fun s nbits w => s.withFetchWord_none⟩
  case ignored => rw [toNat_and_07ff, Nat.mod_mod]
  case noCommand =>
    simp only [List.mem_cons, List.not_mem_nil, or_false] at h
    apply decodeMessage_eq_none <;> omega

end Sys2Proof.Machine
end

section
/-! PROOF. O1: a step runs the front command, and idles on an empty queue (log entry 3). -/

namespace Sys2Proof.Machine

theorem step_of_pending_cons {s : State} {c : Instr} {rest : List Instr} (h : s.pending = c :: rest) :
    step s = exec c { s with pending := rest } := by
  rw [step, h]

theorem step_of_pending_nil {s : State} (h : s.pending = []) : step s = .next s := by
  rw [step, h]

/-- Settles O1, by the two shapes of the queue. -/
theorem stepRunsTheFrontCommand : Obligations.StepRunsTheFrontCommand :=
  ⟨fun _ _ _ => step_of_pending_cons, fun _ => step_of_pending_nil⟩

end Sys2Proof.Machine
end

section
/-! PROOF. O2: every command completes and leaves the queue of waiting commands (log entries 2 to 4). The watching blocks
leave it by `WatchFrame`; what remains is the path unit: arrivals, issues and responses. -/

namespace Sys2Proof.Machine

/-! ### Arrivals (R168 to R171) -/

/-- R170: however many held requests arrive, and whatever they capture. -/
@[simp] theorem State.settleHeld_pending (s : State) : s.settleHeld.pending = s.pending :=
  State.admitHeld_rel (R := fun s t => t.pending = s.pending) (fun _ => rfl) (fun _ _ _ h k => k.trans h)
    (fun _ _ h => h.pending) (fun _ _ => rfl) _ s

theorem arrivalRel_pending : ArrivalRel State.settleHeld fun s t => t.pending = s.pending where
  refl _ := rfl
  trans _ _ _ h k := k.trans h
  watch _ _ h := h.pending
  settle := State.settleHeld_pending

/-- R171: an arrival queues its request and offers it to the watching blocks. -/
@[simp] theorem State.arrive_pending (s : State) (l : UpLane) (r : Request) :
    (s.arrive State.settleHeld l r).pending = s.pending := by
  unfold State.arrive
  split
  · exact arrivalRel_pending.offer (s.enqueue l { request := r, plan := [] }) r
  · exact arrivalRel_pending.offer s r

@[simp] theorem State.present_pending (s : State) (r : Request) : (s.present r).pending = s.pending := by
  unfold State.present
  split
  · rfl
  · split
    · rw [State.settleHeld_pending, State.arrive_pending]
    · rfl

/-! ### Lane messages (R173, R174) -/

@[simp] theorem State.takeGrant_pending (s : State) (l : Lane) (n : Nat) : (s.takeGrant l n).pending = s.pending := by
  unfold State.takeGrant
  split
  · split <;> rfl
  · rfl

@[simp] theorem State.takeCredit_pending (s : State) (l : Lane) (k : Nat) : (s.takeCredit l k).pending = s.pending := by
  unfold State.takeCredit
  split <;> rfl

/-! ### Issue (R177 to R179, R182) -/

@[simp] theorem State.issueForward_pending (s : State) (l : UpLane) : (s.issueForward l).pending = s.pending := by
  unfold State.issueForward
  split <;> rfl

@[simp] theorem State.spendFree_pending (s : State) : s.spendFree.pending = s.pending := by
  unfold State.spendFree
  split <;> rfl

@[simp] theorem State.issueInjected_pending (s : State) : s.issueInjected.pending = s.pending := by
  unfold State.issueInjected
  split
  · rfl
  · split
    · rfl
    · rw [State.send_pending, State.charge_pending, State.spendFree_pending]

@[simp] theorem State.issueNext_pending (s : State) : s.issueNext.pending = s.pending := by
  unfold State.issueNext
  split
  · rename_i l _
    cases l <;> simp [State.issueLane]
  · rfl

/-! ### Responses (R136, R141, R180) -/

@[simp] theorem State.recordAnswered_pending (s : State) (tag : Nat) (st : Status) :
    (s.recordAnswered tag st).pending = s.pending := by
  obtain he | ⟨c, older, younger, -, he⟩ := s.recordAnswered_cases tag st
  · rw [he]
  · rw [he, State.joinTrayRecord_pending]
    cases c <;> simp [State.releaseBank, State.recordGone]

@[simp] theorem State.deliver_pending (s : State) (i : Issued) (st : Status) (data : List Byte) :
    (s.deliver i st data).pending = s.pending := by
  unfold State.deliver
  split
  · exact s.recordAnswered_pending _ _
  · rfl
  · split <;> rfl

@[simp] theorem State.takeResponse_pending (s : State) (source : BitVec 4) (tag : BitVec 8) (st : Status)
    (data : List Byte) : (s.takeResponse source tag st data).pending = s.pending := by
  unfold State.takeResponse
  split
  · rw [State.closeLaneIfDue_pending, State.deliver_pending]
    rfl
  · split <;> rfl

/-! ### Commands -/

/-- R162: a directive, by whatever code and operand it is captured. -/
theorem exec_directive_completes {code operand : BitVec 8} {c : Instr} (h : directiveOf code operand = some c)
    (s : State) : ∃ t, exec c s = .next t ∧ t.pending = s.pending :=
  ⟨_, exec_directiveOf h s, (s.takeDirective_watch code operand).pending⟩

/-- Settles O2, command by command: pin reset keeps the queue by its definition; a request, a capture, an issue and a
response leave it by the lemma about each. -/
theorem everyCommandCompletes : Obligations.EveryCommandCompletes := by
  intro c s
  cases c with
  | pinReset straps => exact ⟨_, rfl, rfl⟩
  | requestPresentation r | requestArrival r | imageWrite r | setupWrite r | dispatchRead r | printRead r | liveRead r
  | exitWrite r | printStatusWrite r => exact ⟨_, rfl, s.present_pending r⟩
  | heldRequestArrival => exact ⟨_, rfl, s.settleHeld_pending⟩
  | memoryMap m => exact ⟨_, rfl, (s.takeMemoryMap_watch m).pending⟩
  | sourceTable m => exact ⟨_, rfl, (s.takeSourceTable_watch m).pending⟩
  | laneMap m => exact ⟨_, rfl, (State.settleHeld_pending _).trans (s.takeLaneMap_watch m).pending⟩
  | alarm mask => exact ⟨_, rfl, (s.takeAlarm_watch mask).pending⟩
  | correction m => exact ⟨_, rfl, (s.takeCorrection_watch m).pending⟩
  | classTest m => exact ⟨_, rfl, (s.takeClassTest_watch m).pending⟩
  | geometry m => exact ⟨_, rfl, (s.takeGeometry_watch m).pending⟩
  | decision m => exact ⟨_, rfl, (s.takeDecision_watch m).pending⟩
  | traySet m => exact ⟨_, rfl, (s.takeTraySet_watch m).pending⟩
  | run => exact exec_directive_completes (code := 1) (operand := 0) rfl s
  | drain => exact exec_directive_completes (code := 2) (operand := 0) rfl s
  | stby => exact exec_directive_completes (code := 3) (operand := 0) rfl s
  | clrs => exact exec_directive_completes (code := 4) (operand := 0) rfl s
  | tclose => exact exec_directive_completes (code := 5) (operand := 0) rfl s
  | csusp => exact exec_directive_completes (code := 6) (operand := 0) rfl s
  | cres => exact exec_directive_completes (code := 7) (operand := 0) rfl s
  | crel => exact exec_directive_completes (code := 8) (operand := 0) rfl s
  | lopen operand => exact exec_directive_completes (code := 9) (operand := operand) rfl s
  | lclose operand => exact exec_directive_completes (code := 10) (operand := operand) rfl s
  | restart => exact exec_directive_completes (code := 11) (operand := 0) rfl s
  | drainEnd => exact ⟨_, rfl, s.drainEndIfDue_track.pending⟩
  | grant lane n => exact ⟨_, rfl, s.takeGrant_pending lane _⟩
  | credit lane k => exact ⟨_, rfl, s.takeCredit_pending lane _⟩
  | drop lane => exact ⟨_, rfl, rfl⟩
  | issue => exact ⟨_, rfl, s.issueNext_pending⟩
  | response source tag st data => exact ⟨_, rfl, s.takeResponse_pending source tag st data⟩
  | pendingClose => exact ⟨_, rfl, s.settlePending_pending⟩
  | trayRecordJoining => exact ⟨_, rfl, s.joinTrayRecord_pending⟩
  | close lane => exact ⟨_, rfl, s.closeLaneIfDue_pending lane⟩

end Sys2Proof.Machine
end
